-- ==== Sys2Proof/Syntax.lean ====
section
/-! DEFINITION. The operations of the block, one constructor per row of spec/opcode_table.json, and the form in which
spec/30_encoding.md R75 writes an evaluation.

An operation has no operand field in its encoding: `op` is the whole encoding (R70), and the operands are the values on the
other input ports (spec/10_state.md R22, R24). So the constructors of `Instr` take no argument. -/

namespace Sys2Proof

/-- The five RISC-V immediate formats (R60 to R65). -/
inductive Format where
  | u
  | i
  | s
  | b
  | j
deriving DecidableEq, Repr

/-- The 22 operations (R71, R72). -/
inductive Instr where
  | decU
  | decI
  | decS
  | decB
  | decJ
  | encU
  | encI
  | encS
  | encB
  | encJ
  | riscv32
  | riscv64
  | branch
  | jal
  | call
  | callPlt
  | pcrelHi20
  | pcrelLo12I
  | pcrelLo12S
  | hi20
  | lo12I
  | lo12S
deriving DecidableEq, Repr

/-- The input ports other than `op` (R22). -/
inductive Port where
  | wordIn
  | immIn
  | S
  | A
  | P
  | Q
deriving DecidableEq, Repr

/-- Which operand ports an operation reads (R24). -/
def Instr.reads : Instr → Port → Bool
  | .decU, p | .decI, p | .decS, p | .decB, p | .decJ, p => p == .wordIn
  | .encU, p | .encI, p | .encS, p | .encB, p | .encJ, p => p == .immIn
  | .riscv32, p | .riscv64, p | .hi20, p | .lo12I, p | .lo12S, p => p == .S || p == .A
  | .pcrelHi20, p | .pcrelLo12I, p | .pcrelLo12S, p | .branch, p | .jal, p => p == .S || p == .A || p == .P
  | .call, p | .callPlt, p => p == .S || p == .A || p == .P || p == .Q

/-- The decode operation of a format (R71). -/
def Format.decoder : Format → Instr
  | .u => .decU
  | .i => .decI
  | .s => .decS
  | .b => .decB
  | .j => .decJ

/-- The encode operation of a format (R71). -/
def Format.encoder : Format → Instr
  | .u => .encU
  | .i => .encI
  | .s => .encS
  | .b => .encB
  | .j => .encJ

/-- The format of the instruction whose field takes `res0` (R67, R157). The two data words have none; for a call pair it is
the format of the instruction at P. A codec operation patches nothing. -/
def Instr.patchedFormat : Instr → Option Format
  | .pcrelHi20 | .hi20 | .call | .callPlt => some .u
  | .pcrelLo12I | .lo12I => some .i
  | .pcrelLo12S | .lo12S => some .s
  | .branch => some .b
  | .jal => some .j
  | .riscv32 | .riscv64 => none
  | .decU | .decI | .decS | .decB | .decJ => none
  | .encU | .encI | .encS | .encB | .encJ => none

/-- An evaluation as R75 writes it: the operation with its operands as numbers, an operand the operation does not read
being omitted. -/
structure Evaluation where
  instr : Instr
  word  : Option Int := none
  imm   : Option Int := none
  S     : Option Int := none
  A     : Option Int := none
  P     : Option Int := none
  Q     : Option Int := none
deriving DecidableEq, Repr

end Sys2Proof
end

