-- ==== Sys2Proof/Word.lean ====
section
/-! DEFINITION. The fixed-width words of the block (spec/00_scope.md R8, R10, R11).

The interpretations of R11 are core operations on bit vectors: `uint` is `BitVec.toNat`, `sint` is `BitVec.toInt`,
`bitsN v` is `BitVec.ofInt N v`, `sext_M` is `BitVec.signExtend M` and `zext_M` is `BitVec.setWidth M`. The field
`w[hi:lo]` of R10 is `BitVec.extractLsb hi lo w`. -/

namespace Sys2Proof

/-- A 32-bit pattern: an InstructionWord, an Immediate, an addend (R8). -/
abbrev Word := BitVec 32

/-- A 64-bit pattern: the port `res0` and the word of R_RISCV_64 (R8, R23). -/
abbrev DWord := BitVec 64

/-- The operation selector `op` (R70). -/
abbrev OpCode := BitVec 8

end Sys2Proof
end

