-- ==== Sys2Proof/Decode.lean ====
section
/-! DEFINITION. The decoder of `op`, written from the rows of spec/opcode_table.json as spec/30_encoding.md R74 says, and
after it the encoder, written from the field layouts of R70 to R72. -/

namespace Sys2Proof

/-- One row of the opcode table: `op` under `mask` is compared with `value` (R74). -/
structure OpRow where
  mask  : OpCode
  value : OpCode
  instr : Instr
deriving DecidableEq, Repr

/-- The codec's rows (R71). -/
def codecRows : List OpRow :=
  [ ⟨0xFF, 0x00, .decU⟩, ⟨0xFF, 0x01, .decI⟩, ⟨0xFF, 0x02, .decS⟩, ⟨0xFF, 0x03, .decB⟩, ⟨0xFF, 0x04, .decJ⟩,
    ⟨0xFF, 0x08, .encU⟩, ⟨0xFF, 0x09, .encI⟩, ⟨0xFF, 0x0A, .encS⟩, ⟨0xFF, 0x0B, .encB⟩, ⟨0xFF, 0x0C, .encJ⟩ ]

/-- The calculator's rows (R72). -/
def calculatorRows : List OpRow :=
  [ ⟨0xFF, 0x81, .riscv32⟩, ⟨0xFF, 0x82, .riscv64⟩, ⟨0xFF, 0x90, .branch⟩, ⟨0xFF, 0x91, .jal⟩,
    ⟨0xFF, 0x92, .call⟩, ⟨0xFF, 0x93, .callPlt⟩, ⟨0xFF, 0x97, .pcrelHi20⟩, ⟨0xFF, 0x98, .pcrelLo12I⟩,
    ⟨0xFF, 0x99, .pcrelLo12S⟩, ⟨0xFF, 0x9A, .hi20⟩, ⟨0xFF, 0x9B, .lo12I⟩, ⟨0xFF, 0x9C, .lo12S⟩ ]

/-- The whole opcode table. -/
def opTable : List OpRow := codecRows ++ calculatorRows

/-- Does a row match an op code (R74)? -/
def OpRow.matches (r : OpRow) (op : OpCode) : Bool := op &&& r.mask == r.value

/-- The operation an `op` selects; `none` is a reserved code (R74: "treats no match as reserved"). -/
def decodeOp (op : OpCode) : Option Instr :=
  (opTable.find? fun r => r.matches op).map OpRow.instr

/-- The operation that the host's numbering of a table row gives: the instruction is the 8 bits of `op`, so a number of
more than 8 bits is none of the block's (log entry 9). -/
def decodeTableWord (_nbits w : Nat) : Option Instr :=
  if w < 2 ^ 8 then decodeOp (BitVec.ofNat 8 w) else none

/-- `op[2:0]` of a format (R71). -/
def Format.code : Format → BitVec 3
  | .u => 0b000
  | .i => 0b001
  | .s => 0b010
  | .b => 0b011
  | .j => 0b100

/-- A codec op: `op[7] = 0`, `op[6:4] = 000`, the direction in `op[3]` (0 decode, 1 encode), the format in `op[2:0]` (R71). -/
def codecOp (direction : BitVec 1) (f : Format) : OpCode := 0#1 ++ 0#3 ++ direction ++ f.code

/-- A calculator op: `op[7] = 1` and the relocation type code in `op[6:0]` (R72). -/
def calculatorOp (typeCode : BitVec 7) : OpCode := 1#1 ++ typeCode

/-- The op code of an operation (R71, R72). -/
def encode : Instr → OpCode
  | .decU => codecOp 0 .u
  | .decI => codecOp 0 .i
  | .decS => codecOp 0 .s
  | .decB => codecOp 0 .b
  | .decJ => codecOp 0 .j
  | .encU => codecOp 1 .u
  | .encI => codecOp 1 .i
  | .encS => codecOp 1 .s
  | .encB => codecOp 1 .b
  | .encJ => codecOp 1 .j
  | .riscv32 => calculatorOp 1
  | .riscv64 => calculatorOp 2
  | .branch => calculatorOp 16
  | .jal => calculatorOp 17
  | .call => calculatorOp 18
  | .callPlt => calculatorOp 19
  | .pcrelHi20 => calculatorOp 23
  | .pcrelLo12I => calculatorOp 24
  | .pcrelLo12S => calculatorOp 25
  | .hi20 => calculatorOp 26
  | .lo12I => calculatorOp 27
  | .lo12S => calculatorOp 28

end Sys2Proof
end

