-- ==== Sys2Proof/Config.lean ====
section
/-! DEFINITION. What is fixed when the block is built (spec/00_scope.md R6, R7; spec/70_reset_and_hazards.md R244).

`Build` is plain data, so that a claim about every state is a claim about every admitted ADDR_W and a run with the default
parameters can be evaluated (log entry 4). No value of the spec is left free: see log entry 6 for R245. -/

namespace Sys2Proof

/-- The parameters of one built block. They cannot be changed at run time (R28). -/
structure Build where
  /-- ADDR_W - 64: the constraint ADDR_W >= 64 of R6 holds by construction. -/
  addrWBeyond64 : Nat := 0
  /-- LATENCY of an implementation that registers its outputs (R244). "No rule depends on" it: nothing reads it. -/
  latency : Nat := 0
deriving DecidableEq, Repr

/-- ADDR_W: the width in bits of S, P and Q (R6). -/
abbrev Build.addrW (b : Build) : Nat := 64 + b.addrWBeyond64

/-- The block with the spec's default parameters: ADDR_W = 64 (R6) and LATENCY = 0 (R244). -/
def Config.defaultBuild : Build := { addrWBeyond64 := 0, latency := 0 }

/-- CALL_PAIR_OFFSET: "The value is 4 and no other value is admitted" (R7). -/
def Config.callPairOffset : Int := 4

end Sys2Proof
end

