-- ==== Sys2Proof/Machine/State.lean ====
section
/-! DEFINITION. The state of the model: how the block is built, and the values present on its ports.

The block itself holds nothing between evaluations (spec/10_state.md R20, R21). `ins` are the values the host drives, `outs`
the values on the output ports; a step replaces `outs` by EVAL of `ins` (log entry 1). -/

namespace Sys2Proof.Machine

/-- The input ports (R22), for a block whose addresses are `addrW` bits wide. -/
structure Inputs (addrW : Nat) where
  /-- `op`: chooses the operation. -/
  op     : OpCode
  /-- `word_in`: the InstructionWord a decode reads. -/
  wordIn : Word
  /-- `imm_in`: the immediate an encode packs. -/
  immIn  : Word
  /-- The symbol address. -/
  S      : BitVec addrW
  /-- The addend, 32 bits (R8, R22; log entry 7). -/
  A      : Word
  /-- The address of the relocation site. -/
  P      : BitVec addrW
  /-- The address of the paired lo12 instruction of a call. -/
  Q      : BitVec addrW
deriving DecidableEq, Repr

/-- The output ports (R23). -/
structure Outputs where
  /-- The primary result. -/
  res0 : DWord
  /-- The lo12 immediate of a call pair; zero for every other operation. -/
  res1 : Word
  /-- The outcome code (R203). -/
  err  : BitVec 2
deriving DecidableEq, Repr

/-- The three error causes (R201). They are result values, never traps (R200). -/
inductive ErrorCause where
  /-- "a computed hi20/lo12 split or direct value does not fit in its target field width". -/
  | rangeError
  /-- "(CALL only) the assumed paired instruction is not at the expected fixed offset". -/
  | adjacencyError
  /-- "malformed relocation kind/format pairing": a reserved `op` (R202). -/
  | preconditionError
deriving DecidableEq, Repr

/-- What a successful operation yields; R23 says how each kind of value is laid on `res0` and `res1`. -/
inductive Value where
  /-- A 32-bit signed Immediate. -/
  | immediate (v : Word)
  /-- A 32-bit word: an ENC_* result or R_RISCV_32. -/
  | word (w : Word)
  /-- The 64-bit word of R_RISCV_64. -/
  | dword (w : DWord)
  /-- The hi and lo immediates of a call pair. -/
  | pair (hi lo : Word)
deriving DecidableEq, Repr

/-- Every operation yields `Ok(r)` or `Err(e)` (R13). -/
inductive Result where
  | ok (v : Value)
  | err (e : ErrorCause)
deriving DecidableEq, Repr

/-- The state of the model. -/
structure State where
  /-- How the block is built: fixed (R28). -/
  build : Build
  /-- The values the host drives on the input ports. -/
  ins   : Inputs build.addrW
  /-- The values on the output ports. -/
  outs  : Outputs
deriving DecidableEq, Repr

/-- Reasons the machine stops. There is none: "The block has no traps and no exceptions in the processor sense" (R200), and
every op code, reserved ones too, has an outcome on `err` (R202, R203). Having no constructor is SAFE: it says only that a
step never faults, which the spec says (log entry 11). -/
inductive Fault : Type
deriving DecidableEq, Repr

/-- Reasons an operation has no meaning in the model. -/
inductive Refusal where
  /-- Kept for the interface: `exec` would raise it for an operation that has no meaning yet. Every operation has its meaning,
  so nothing raises it. SAFE: it would stop a run. -/
  | notModelled (mnemonic : String)
deriving DecidableEq, Repr

/-- All input ports driven with zeros. -/
def Inputs.zero (addrW : Nat) : Inputs addrW :=
  { op := 0, wordIn := 0, immIn := 0, S := 0, A := 0, P := 0, Q := 0 }

/-- The machine right after reset. The block has no reset (R31, R240): the parameters are the spec's defaults, the inputs are
whatever the host drives (DESIGN CHOICE zero, unsafe, log entry 2), and the outputs are EVAL of them, which for DEC_U of
the zero word is 0 / 0 / 0 (DEDUCED from R240 and R102, log entry 3). -/
def State.reset : State :=
  { build := Config.defaultBuild
    ins := Inputs.zero Config.defaultBuild.addrW
    outs := { res0 := 0, res1 := 0, err := 0 } }

end Sys2Proof.Machine
end

