-- ==== Sys2Proof/Machine/Flags.lean ====
section
/-! DEFINITION. The block has no flags or condition codes: `err` is its only status output (spec/10_state.md R27). This file
says what a result drives on it (spec/60_exceptions.md R203). -/

namespace Sys2Proof.Machine

/-- The code of an error cause (R203). -/
def ErrorCause.code : ErrorCause → BitVec 2
  | .rangeError => 1
  | .adjacencyError => 2
  | .preconditionError => 3

/-- The outcome code of a result: 0 is Ok (R203). -/
def Result.errCode : Result → BitVec 2
  | .ok _ => 0
  | .err e => e.code

end Sys2Proof.Machine
end

