-- ==== Sys2Proof/Machine/Operands.lean ====
section
/-! DEFINITION. The operands: the integers a relocation reads (spec/41_relocation_calculator.md R140) and the immediate of a
format in its word, read and packed (spec/30_encoding.md R61 to R66, spec/40_immediate_codec.md). -/

namespace Sys2Proof.Machine

/-- `s = uint(S)` (R140). -/
def Inputs.s {n : Nat} (ins : Inputs n) : Int := ins.S.toNat

/-- `a = sint(A)` (R140). -/
def Inputs.a {n : Nat} (ins : Inputs n) : Int := ins.A.toInt

/-- `p = uint(P)` (R140). -/
def Inputs.p {n : Nat} (ins : Inputs n) : Int := ins.P.toNat

/-- `q = uint(Q)` (R140). -/
def Inputs.q {n : Nat} (ins : Inputs n) : Int := ins.Q.toNat

/-- `x_abs = s + a`, an exact integer (R140). -/
def Inputs.xAbs {n : Nat} (ins : Inputs n) : Int := ins.s + ins.a

/-- `x_rel = s + a - p`, an exact integer (R140). -/
def Inputs.xRel {n : Nat} (ins : Inputs n) : Int := ins.s + ins.a - ins.p

/-- The word bits a format's immediate occupies (R66). -/
def fieldMask : Format → Word
  | .u => 0xFFFFF000
  | .i => 0xFFF00000
  | .s => 0xFE000F80
  | .b => 0xFE000F80
  | .j => 0xFFFFF000

/-- The 32-bit immediate a word carries in a format (R102 to R106). -/
def readImmediate (f : Format) (w : Word) : Word :=
  match f with
  | .u => w.extractLsb 31 12 ++ 0#12
  | .i => (w.extractLsb 31 20).signExtend 32
  | .s => (w.extractLsb 31 25 ++ w.extractLsb 11 7).signExtend 32
  | .b => (w.extractLsb 31 31 ++ w.extractLsb 7 7 ++ w.extractLsb 30 25 ++ w.extractLsb 11 8 ++ 0#1).signExtend 32
  | .j => (w.extractLsb 31 31 ++ w.extractLsb 19 12 ++ w.extractLsb 20 20 ++ w.extractLsb 30 21 ++ 0#1).signExtend 32

/-- The immediate's bits in their field positions, every other bit of the word zero (R111 to R115). -/
def packImmediate (f : Format) (imm : Word) : Word :=
  match f with
  | .u => imm.extractLsb 31 12 ++ 0#12
  | .i => imm.extractLsb 11 0 ++ 0#20
  | .s => imm.extractLsb 11 5 ++ 0#13 ++ imm.extractLsb 4 0 ++ 0#7
  | .b => imm.extractLsb 12 12 ++ imm.extractLsb 10 5 ++ 0#13 ++ imm.extractLsb 4 1 ++ imm.extractLsb 11 11 ++ 0#7
  | .j => imm.extractLsb 20 20 ++ imm.extractLsb 10 1 ++ imm.extractLsb 11 11 ++ imm.extractLsb 19 12 ++ 0#12

/-- Is an integer in a format's legal value set (R66)? -/
def legalImmediate (f : Format) (v : Int) : Bool :=
  match f with
  | .u => decide (-2 ^ 31 ≤ v) && decide (v ≤ 2 ^ 31 - 4096) && decide (v % 4096 = 0)
  | .i => decide (-2048 ≤ v) && decide (v ≤ 2047)
  | .s => decide (-2048 ≤ v) && decide (v ≤ 2047)
  | .b => decide (-4096 ≤ v) && decide (v ≤ 4094) && decide (v % 2 = 0)
  | .j => decide (-1048576 ≤ v) && decide (v ≤ 1048574) && decide (v % 2 = 0)

/-- `hi20_field(x) = (x + 0x800) >> 12`, with the floor shift of R12 (R140). -/
def hi20Field (x : Int) : Int := (x + 0x800) >>> (12 : Nat)

/-- `hi_imm(x) = hi20_field(x) << 12` (R140, R12). -/
def hiImm (x : Int) : Int := hi20Field x * 2 ^ 12

/-- `lo_imm(x) = sint(bits12(x))` (R140). -/
def loImm (x : Int) : Int := (BitVec.ofInt 12 x).toInt

/-- `fitsHi(x)`: `-2^31 <= hi_imm(x) <= 2^31 - 4096` (R140). -/
def fitsHi (x : Int) : Bool := decide (-2 ^ 31 ≤ hiImm x) && decide (hiImm x ≤ 2 ^ 31 - 4096)

/-- Does an integer fit a word of `n` bits, read as signed or as unsigned (R142, R143)? -/
def fitsWord (n : Nat) (v : Int) : Bool := decide (-2 ^ (n - 1) ≤ v) && decide (v ≤ 2 ^ n - 1)

/-- The host's merge of field bits into a word of the format (R117). The block does not perform it (log entry 14). -/
def mergeField (f : Format) (w field : Word) : Word := (w &&& ~~~fieldMask f) ||| field

end Sys2Proof.Machine
end

