-- ==== Sys2Proof/Machine/Ops.lean ====
section
/-! DEFINITION. The shared operations: how a result is driven on the output ports (spec/10_state.md R23,
spec/60_exceptions.md R203, R204), the computations several operations share, and what the host does to the inputs (R33).

An error is the nearest thing the block has to an exception, and `Result.outputs` is the ONE place where it is taken: nothing is
saved, no mode changes and control goes nowhere (R200, R209). -/

namespace Sys2Proof.Machine

/-- The primary result of a value: an Immediate is sign-extended, a 32-bit word zero-extended, the word of R_RISCV_64 fills
the port (R23). -/
def Value.res0 : Value → DWord
  | .immediate v => v.signExtend 64
  | .word w => w.setWidth 64
  | .dword w => w
  | .pair hi _ => hi.signExtend 64

/-- The secondary result of a value: the lo12 immediate of a call pair, zero otherwise (R23). -/
def Value.res1 : Value → Word
  | .pair _ lo => lo
  | .immediate _ => 0
  | .word _ => 0
  | .dword _ => 0

/-- What a result drives on the output ports: an error drives its code and zeros (R203, R204). -/
def Result.outputs : Result → Outputs
  | .ok v => { res0 := v.res0, res1 := v.res1, err := Result.errCode (.ok v) }
  | .err e => { res0 := 0, res1 := 0, err := Result.errCode (.err e) }

/-- The end of every evaluation: the outputs settle at the result's, and nothing else changes (R21, R44, R204). -/
def State.conclude (r : Result) (s : State) : Host.Outcome State Fault Refusal :=
  .next { s with outs := r.outputs }

/-- A reserved `op`: PreconditionError and no other effect (R73, R202). -/
def reservedOp (s : State) : Host.Outcome State Fault Refusal :=
  s.conclude (.err .preconditionError)

/-- ENC_F: the field bits of a legal immediate, RangeError for any other (R110). -/
def encodeImmediate (f : Format) (imm : Word) : Result :=
  if legalImmediate f imm.toInt then .ok (.word (packImmediate f imm)) else .err .rangeError

/-- The hi half of a split, for the offset or address `x` (R144, R147). -/
def splitHi (x : Int) : Result :=
  if fitsHi x then .ok (.immediate (BitVec.ofInt 32 (hiImm x))) else .err .rangeError

/-- The lo half of a split; every `x` has one (R145, R148). -/
def splitLo (x : Int) : Result := .ok (.immediate (BitVec.ofInt 32 (loImm x)))

/-- A displacement placed in a B or J field: legal values are even and within reach (R151, R152). -/
def displacement (f : Format) (x : Int) : Result :=
  if legalImmediate f x then .ok (.immediate (BitVec.ofInt 32 x)) else .err .rangeError

/-- The call pair: adjacency is tested first, then the range of the offset measured from P (R153, R205). -/
def callPair {n : Nat} (ins : Inputs n) : Result :=
  if ins.q ≠ ins.p + Config.callPairOffset then .err .adjacencyError
  else if fitsHi ins.xRel then
    .ok (.pair (BitVec.ofInt 32 (hiImm ins.xRel)) (BitVec.ofInt 32 (loImm ins.xRel)))
  else .err .rangeError

/-- The host drives other inputs (R33). Until the next evaluation the outputs are unspecified, "any value of `res0`, `res1`
and `err`" (R245): they are the argument `unsettled`, and a claim holds for every value of it (log entry 6). -/
def State.present (s : State) (ins : Inputs s.build.addrW) (unsettled : Outputs) : State :=
  { s with ins := ins, outs := unsettled }

/-- The host drives `word_in` alone. -/
def State.driveWord (s : State) (w : Word) : State := { s with ins := { s.ins with wordIn := w } }

/-- The host drives `imm_in` alone. -/
def State.driveImm (s : State) (v : Word) : State := { s with ins := { s.ins with immIn := v } }

/-- `res0[31:0]`, the part of the primary result the host hands on (R33, R157). -/
def Outputs.low (o : Outputs) : Word := o.res0.setWidth 32

/-- The value a written operand puts on a port of `n` bits; an omitted operand leaves what the host happens to drive. -/
def operandValue {n : Nat} (driven : BitVec n) : Option Int → BitVec n
  | none => driven
  | some v => BitVec.ofInt n v

/-- The inputs an evaluation of R75 stands for. The operands it omits are not read (R24): they stay as `driven`. -/
def evaluationInputs {n : Nat} (e : Evaluation) (driven : Inputs n) : Inputs n :=
  { op := encode e.instr
    wordIn := operandValue driven.wordIn e.word
    immIn := operandValue driven.immIn e.imm
    S := operandValue driven.S e.S
    A := operandValue driven.A e.A
    P := operandValue driven.P e.P
    Q := operandValue driven.Q e.Q }

end Sys2Proof.Machine
end

