-- ==== Sys2Proof/Machine/AbsoluteSplit.lean ====
section
/-! DEFINITION. The absolute split kinds (spec/41_relocation_calculator.md R147 to R149). -/

namespace Sys2Proof.Machine

/-- R_RISCV_HI20 (R147). -/
def execHi20 (s : State) : Host.Outcome State Fault Refusal :=
  s.conclude (splitHi s.ins.xAbs)

/-- R_RISCV_LO12_I (R148). -/
def execLo12I (s : State) : Host.Outcome State Fault Refusal :=
  s.conclude (splitLo s.ins.xAbs)

/-- R_RISCV_LO12_S (R149): the computation of R148; the host encodes the result with ENC_S. -/
def execLo12S (s : State) : Host.Outcome State Fault Refusal :=
  s.conclude (splitLo s.ins.xAbs)

end Sys2Proof.Machine
end

