-- ==== Sys2Proof/Machine/CallPair.lean ====
section
/-! DEFINITION. The call pair kinds (spec/41_relocation_calculator.md R153, R154). -/

namespace Sys2Proof.Machine

/-- R_RISCV_CALL (R153). -/
def execCall (s : State) : Host.Outcome State Fault Refusal :=
  s.conclude (callPair s.ins)

/-- R_RISCV_CALL_PLT (R154): "It behaves exactly as rule R153". -/
def execCallPlt (s : State) : Host.Outcome State Fault Refusal :=
  s.conclude (callPair s.ins)

end Sys2Proof.Machine
end

