-- ==== Sys2Proof/Machine/DecodeImmediate.lean ====
section
/-! DEFINITION. The decode operations of the immediate codec (spec/40_immediate_codec.md R100 to R108). They read only
`word_in`, accept every word (spec/30_encoding.md R68) and never fail. -/

namespace Sys2Proof.Machine

/-- DEC_U (R102): `w[31:12] ++ 0^12`; never an error. -/
def execDecU (s : State) : Host.Outcome State Fault Refusal :=
  s.conclude (.ok (.immediate (readImmediate .u s.ins.wordIn)))

/-- DEC_I (R103): `sext_32(w[31:20])`; never an error. -/
def execDecI (s : State) : Host.Outcome State Fault Refusal :=
  s.conclude (.ok (.immediate (readImmediate .i s.ins.wordIn)))

/-- DEC_S (R104): `sext_32(w[31:25] ++ w[11:7])`; never an error. -/
def execDecS (s : State) : Host.Outcome State Fault Refusal :=
  s.conclude (.ok (.immediate (readImmediate .s s.ins.wordIn)))

/-- DEC_B (R105): `sext_32(w[31] ++ w[7] ++ w[30:25] ++ w[11:8] ++ 0)`; never an error. -/
def execDecB (s : State) : Host.Outcome State Fault Refusal :=
  s.conclude (.ok (.immediate (readImmediate .b s.ins.wordIn)))

/-- DEC_J (R106): `sext_32(w[31] ++ w[19:12] ++ w[20] ++ w[30:21] ++ 0)`; never an error. -/
def execDecJ (s : State) : Host.Outcome State Fault Refusal :=
  s.conclude (.ok (.immediate (readImmediate .j s.ins.wordIn)))

end Sys2Proof.Machine
end

