-- ==== Sys2Proof/Machine/DirectWord.lean ====
section
/-! DEFINITION. The direct word kinds (spec/41_relocation_calculator.md R142, R143). -/

namespace Sys2Proof.Machine

/-- R_RISCV_32 (R142): S + A as a 32-bit word, signed or unsigned. -/
def execRiscv32 (s : State) : Host.Outcome State Fault Refusal :=
  s.conclude (if fitsWord 32 s.ins.xAbs then .ok (.word (BitVec.ofInt 32 s.ins.xAbs)) else .err .rangeError)

/-- R_RISCV_64 (R143): S + A as a 64-bit word, signed or unsigned. -/
def execRiscv64 (s : State) : Host.Outcome State Fault Refusal :=
  s.conclude (if fitsWord 64 s.ins.xAbs then .ok (.dword (BitVec.ofInt 64 s.ins.xAbs)) else .err .rangeError)

end Sys2Proof.Machine
end

