-- ==== Sys2Proof/Machine/Displacement.lean ====
section
/-! DEFINITION. The displacement kinds (spec/41_relocation_calculator.md R151, R152). -/

namespace Sys2Proof.Machine

/-- R_RISCV_BRANCH (R151): the displacement of a B-type instruction. -/
def execBranch (s : State) : Host.Outcome State Fault Refusal :=
  s.conclude (displacement .b s.ins.xRel)

/-- R_RISCV_JAL (R152): the displacement of a J-type instruction. -/
def execJal (s : State) : Host.Outcome State Fault Refusal :=
  s.conclude (displacement .j s.ins.xRel)

end Sys2Proof.Machine
end

