-- ==== Sys2Proof/Machine/EncodeImmediate.lean ====
section
/-! DEFINITION. The encode operations of the immediate codec (spec/40_immediate_codec.md R110 to R115). They read only
`imm_in` and give the field bits alone, every other bit zero. -/

namespace Sys2Proof.Machine

/-- ENC_U (R111): RangeError when any of bits 11:0 of `imm_in` is set. -/
def execEncU (s : State) : Host.Outcome State Fault Refusal :=
  s.conclude (encodeImmediate .u s.ins.immIn)

/-- ENC_I (R112): RangeError outside `-2048 .. 2047`. -/
def execEncI (s : State) : Host.Outcome State Fault Refusal :=
  s.conclude (encodeImmediate .i s.ins.immIn)

/-- ENC_S (R113): RangeError outside `-2048 .. 2047`. -/
def execEncS (s : State) : Host.Outcome State Fault Refusal :=
  s.conclude (encodeImmediate .s s.ins.immIn)

/-- ENC_B (R114): RangeError when odd or outside `-4096 .. 4094`. -/
def execEncB (s : State) : Host.Outcome State Fault Refusal :=
  s.conclude (encodeImmediate .b s.ins.immIn)

/-- ENC_J (R115): RangeError when odd or outside `-1048576 .. 1048574`. -/
def execEncJ (s : State) : Host.Outcome State Fault Refusal :=
  s.conclude (encodeImmediate .j s.ins.immIn)

end Sys2Proof.Machine
end

