-- ==== Sys2Proof/Machine/PcrelSplit.lean ====
section
/-! DEFINITION. The PC-relative split kinds (spec/41_relocation_calculator.md R144 to R146). -/

namespace Sys2Proof.Machine

/-- R_RISCV_PCREL_HI20 (R144). -/
def execPcrelHi20 (s : State) : Host.Outcome State Fault Refusal :=
  s.conclude (splitHi s.ins.xRel)

/-- R_RISCV_PCREL_LO12_I (R145). The block uses the P on its input (D13). -/
def execPcrelLo12I (s : State) : Host.Outcome State Fault Refusal :=
  s.conclude (splitLo s.ins.xRel)

/-- R_RISCV_PCREL_LO12_S (R146): the computation of R145; the host encodes the result with ENC_S. -/
def execPcrelLo12S (s : State) : Host.Outcome State Fault Refusal :=
  s.conclude (splitLo s.ins.xRel)

end Sys2Proof.Machine
end

