-- ==== Sys2Proof/Machine/Dispatch.lean ====
section
/-! DEFINITION. The meaning of each operation, one arm per constructor of Instr. Every operation has its meaning. -/

namespace Sys2Proof.Machine

def exec (i : Instr) (s : State) : Host.Outcome State Fault Refusal :=
  match i with
  | .decU => Sys2Proof.Machine.execDecU s
  | .decI => Sys2Proof.Machine.execDecI s
  | .decS => Sys2Proof.Machine.execDecS s
  | .decB => Sys2Proof.Machine.execDecB s
  | .decJ => Sys2Proof.Machine.execDecJ s
  | .encU => Sys2Proof.Machine.execEncU s
  | .encI => Sys2Proof.Machine.execEncI s
  | .encS => Sys2Proof.Machine.execEncS s
  | .encB => Sys2Proof.Machine.execEncB s
  | .encJ => Sys2Proof.Machine.execEncJ s
  | .riscv32 => Sys2Proof.Machine.execRiscv32 s
  | .riscv64 => Sys2Proof.Machine.execRiscv64 s
  | .branch => Sys2Proof.Machine.execBranch s
  | .jal => Sys2Proof.Machine.execJal s
  | .call => Sys2Proof.Machine.execCall s
  | .callPlt => Sys2Proof.Machine.execCallPlt s
  | .pcrelHi20 => Sys2Proof.Machine.execPcrelHi20 s
  | .pcrelLo12I => Sys2Proof.Machine.execPcrelLo12I s
  | .pcrelLo12S => Sys2Proof.Machine.execPcrelLo12S s
  | .hi20 => Sys2Proof.Machine.execHi20 s
  | .lo12I => Sys2Proof.Machine.execLo12I s
  | .lo12S => Sys2Proof.Machine.execLo12S s

end Sys2Proof.Machine
end

