-- ==== Sys2Proof/Machine/Step.lean ====
section
/-! DEFINITION. One step: one evaluation of the block on the inputs present, from present inputs to settled outputs
(spec/10_state.md R21, R32; spec/70_reset_and_hazards.md R244). There is no program counter and nothing is fetched (R26, R50): the
operation is the one that `op` selects, so the next step evaluates the same inputs again unless the host changes them. -/

namespace Sys2Proof.Machine

/-- One evaluation: the operation of `op`, or the outcome of a reserved `op` (R202), which is tested before everything
else (R205). -/
def step (s : State) : Host.Outcome State Fault Refusal :=
  match decodeOp s.ins.op with
  | some i => exec i s
  | none => reservedOp s

/-- The outputs a step left, read back; a step always answers a next state, so the arm for a refusal is never reached
(log entry 11). -/
def outputsOf : Host.Outcome State Fault Refusal → Outputs
  | .next s => s.outs
  | .fault r => nomatch r
  | .refused _ => Result.outputs (.err .preconditionError)

/-- EVAL, the block as one combinational function from its input ports to its output ports (R21): what one evaluation leaves on
the outputs, whatever stood there before. -/
def EVAL (b : Build) (ins : Inputs b.addrW) : Outputs :=
  outputsOf (step { build := b, ins := ins, outs := { res0 := 0, res1 := 0, err := 0 } })

/-- `s` with the operation whose code is `w` selected on the port `op`, so that the very next step evaluates it. The block
fetches nothing: this is the host driving `op` (R33; log entry 9). The operands stay as they are. -/
def State.withFetchWord (s : State) (_nbits w : Nat) : State :=
  { s with ins := { s.ins with op := BitVec.ofNat 8 w } }

end Sys2Proof.Machine
end

