-- ==== Sys2Proof/WellFormed.lean ====
section
/-! DEFINITION. What is well formed: an op code that is not reserved (spec/30_encoding.md R73), and an evaluation that
gives exactly the operands its operation reads, each inside its port's range (R75, spec/10_state.md R22, R24). `Instr` itself
has no field, so there is no ill-formed term of it. -/

namespace Sys2Proof

/-- The calculator's type codes (R72, R73): "1, 2, 16, 17, 18, 19 and 23 to 28". -/
def typeCodes : List Nat := [1, 2, 16, 17, 18, 19, 23, 24, 25, 26, 27, 28]

/-- A reserved `op`, by the three cases of R73: a codec value with `op[6:4] != 000`, a codec value with a format above J,
a calculator value whose type code is not listed. -/
def OpCode.reserved (op : OpCode) : Bool :=
  if op.extractLsb 7 7 = 0#1 then
    op.extractLsb 6 4 != 0#3 || decide (op.extractLsb 2 0 ∈ [5#3, 6#3, 7#3])
  else
    decide ((op.extractLsb 6 0).toNat ∉ typeCodes)

/-- An operand is written exactly when the operation reads it, and its number lies on the port (R75, R22). -/
def operandOk (read : Bool) (lo hi : Int) : Option Int → Bool
  | none => !read
  | some v => read && decide (lo ≤ v) && decide (v ≤ hi)

/-- The check of an evaluation for a block built as `b`. A 32-bit immediate may be written as its signed value or as its
pattern, since the spec's own vectors write both (log entry 12). -/
def Evaluation.wellFormed (b : Build) (e : Evaluation) : Bool :=
  operandOk (e.instr.reads .wordIn) 0 (2 ^ 32 - 1) e.word &&
  operandOk (e.instr.reads .immIn) (-2 ^ 31) (2 ^ 32 - 1) e.imm &&
  operandOk (e.instr.reads .S) 0 (2 ^ b.addrW - 1) e.S &&
  operandOk (e.instr.reads .A) (-2 ^ 31) (2 ^ 31 - 1) e.A &&
  operandOk (e.instr.reads .P) 0 (2 ^ b.addrW - 1) e.P &&
  operandOk (e.instr.reads .Q) 0 (2 ^ b.addrW - 1) e.Q

end Sys2Proof
end

