-- ==== Sys2Proof/Safety.lean ====
section
/-! DEFINITION. What claims call settled and lawful outputs.

No run of the block is unsafe in the sense of a stop: it has no traps (spec/60_exceptions.md R200). What can go wrong is that the
outputs say something they must not, or are read before they settle (spec/70_reset_and_hazards.md R245). -/

namespace Sys2Proof.Machine

/-- The outputs are EVAL of the inputs present (R21, R31, R240). -/
def State.settled (s : State) : Prop := s.outs = EVAL s.build s.ins

/-- `op` selects R_RISCV_CALL or R_RISCV_CALL_PLT. -/
def State.selectsCall (s : State) : Prop :=
  decodeOp s.ins.op = some .call ∨ decodeOp s.ins.op = some .callPlt

/-- What the outputs may be beside the `op` present: the rules of R108, R110, R157, R202, R204 and R206 that hold whatever
the operands are. -/
structure State.Lawful (s : State) : Prop where
  /-- R204. -/
  errorDrivesZeros : s.outs.err ≠ 0 → s.outs.res0 = 0 ∧ s.outs.res1 = 0
  /-- R202. -/
  preconditionIffReserved : s.outs.err = 3 ↔ OpCode.reserved s.ins.op = true
  /-- R206. -/
  adjacencyOnlyForCalls : s.outs.err = 2 → s.selectsCall
  /-- R23. -/
  secondResultOnlyForCalls : s.outs.res1 ≠ 0 → s.selectsCall
  /-- R100, R108. -/
  decodedIsLegal : ∀ f : Format, decodeOp s.ins.op = some f.decoder →
    s.outs.err = 0 ∧ legalImmediate f s.outs.res0.toInt = true
  /-- R110. -/
  encodedStaysInField : ∀ f : Format, decodeOp s.ins.op = some f.encoder →
    s.outs.res0 &&& ~~~((fieldMask f).setWidth 64) = 0
  /-- R157. -/
  relocationFitsItsField : ∀ (i : Instr) (f : Format), decodeOp s.ins.op = some i → i.patchedFormat = some f →
    s.outs.err = 0 → legalImmediate f s.outs.res0.toInt = true
  /-- R157. -/
  callLowHalfFits : s.selectsCall → s.outs.err = 0 → legalImmediate .i s.outs.res1.toInt = true

end Sys2Proof.Machine
end

