-- ==== Sys2Proof/Certificates/Slice0/Obligations.lean ====
section
/-! DEFINITION. The statements for the provers. They hold for every state, so for every admitted ADDR_W (spec/00_scope.md R6).

The result statements write the rule's own pseudocode out over the ports, with bounds as numbers, and not over the model's
shared operations. Each is an equation whose right side is the whole next state, so it is the operation's completion and its
frame as well: the inputs and the build parameters are as before, and the block has no other state. -/

namespace Sys2Proof.Machine

/-- Two inputs of one block get the same answer from `i`: it completes on both with the same outputs. -/
def SameOutputs (i : Instr) (s : State) (ins : Inputs s.build.addrW) : Prop :=
  ∃ o : Outputs, exec i s = .next { s with outs := o } ∧
    exec i { s with ins := ins } = .next { s with ins := ins, outs := o }

/-- `i` completes with the outcome code `e`. -/
def AnswersErr (i : Instr) (s : State) (e : BitVec 2) : Prop :=
  ∃ t : State, exec i s = .next t ∧ t.outs.err = e

/-- `S + A - P`, the exact integer (R140). -/
def relativeOffset {n : Nat} (ins : Inputs n) : Int := (ins.S.toNat : Int) + ins.A.toInt - (ins.P.toNat : Int)

/-- `S + A`, the exact integer (R140). -/
def absoluteSum {n : Nat} (ins : Inputs n) : Int := (ins.S.toNat : Int) + ins.A.toInt

/-- The code of RangeError when `bad` holds, of Ok otherwise. -/
def rangeCode (bad : Prop) [Decidable bad] : BitVec 2 := if bad then 1 else 0

end Sys2Proof.Machine

open Sys2Proof Sys2Proof.Machine

/-! ### The step and the function EVAL -/

/-- R240: right after a reset the outputs are EVAL of the inputs. The reset inputs themselves are the model's choice (log
entries 2 and 3). -/
def Obligations.ResetOutputsAreEvalOfInputs : Prop := State.reset.settled

/-- R21: one evaluation drives EVAL of the present inputs, always completes and changes nothing else. EVAL is the model's
name for what a step drives from blank outputs, so this says that the old outputs play no part. -/
def Obligations.StepDrivesEvalOfPresentInputs : Prop :=
  ∀ s : State, step s = .next { s with outs := EVAL s.build s.ins }

/-- R44: a second evaluation of the same inputs gives the same outputs and changes nothing. -/
def Obligations.EvaluationIsIdempotent : Prop :=
  ∀ s : State, ∃ t : State, step s = .next t ∧ step t = .next t

/-- R21, R33, R245: whatever ran before, whatever the inputs were and whatever stands on the outputs before they settle, once
the host presents inputs one evaluation drives EVAL of them. -/
def Obligations.NothingEarlierReachesTheOutputs : Prop :=
  ∀ (s : State) (ins : Inputs s.build.addrW) (unsettled : Outputs),
    step (s.present ins unsettled) = .next { s with ins := ins, outs := EVAL s.build ins }

/-- The next step runs the operation that `op` selects, and the host selects one by driving its code (R33, R70). -/
def Obligations.StepRunsTheSelectedOperation : Prop :=
  (∀ (s : State) (i : Instr), decodeOp s.ins.op = some i → step s = exec i s) ∧
  (∀ (s : State) (nbits w : Nat) (i : Instr), decodeTableWord nbits w = some i →
    step (s.withFetchWord nbits w) = exec i { s with ins := { s.ins with op := BitVec.ofNat 8 w } })

/-- R202: a reserved `op` yields PreconditionError with zero outputs, and no other `op` yields it. -/
def Obligations.PreconditionErrorExactlyOnReservedOp : Prop :=
  (∀ s : State, OpCode.reserved s.ins.op = true →
    step s = .next { s with outs := { res0 := 0, res1 := 0, err := 3 } }) ∧
  (∀ s : State, OpCode.reserved s.ins.op = false → ∃ t : State, step s = .next t ∧ t.outs.err ≠ 3)

/-- R20, R28: every operation completes, and nothing but the outputs changes. -/
def Obligations.EveryOperationChangesOnlyTheOutputs : Prop :=
  ∀ (i : Instr) (s : State), ∃ o : Outputs, exec i s = .next { s with outs := o }

/-- R244: LATENCY is a parameter "that no rule depends on". -/
def Obligations.LatencyReachesNoOutput : Prop :=
  ∀ (b : Build) (l : Nat) (ins : Inputs b.addrW), EVAL { b with latency := l } ins = EVAL b ins

/-- R6, R140: ADDR_W only bounds the addresses: two blocks of different widths, given the same numbers, drive the same outputs. -/
def Obligations.OutputsDependOnAddressesAsNumbers : Prop :=
  ∀ s t : State, t.ins.op = s.ins.op → t.ins.wordIn = s.ins.wordIn → t.ins.immIn = s.ins.immIn →
    t.ins.A = s.ins.A → t.ins.S.toNat = s.ins.S.toNat → t.ins.P.toNat = s.ins.P.toNat → t.ins.Q.toNat = s.ins.Q.toNat →
    ∃ o : Outputs, step s = .next { s with outs := o } ∧ step t = .next { t with outs := o }

/-! ### The encoding of `op` -/

/-- R71, R72: the code of each operation. -/
def Obligations.OperationCodesAsListed : Prop :=
  [Instr.decU, .decI, .decS, .decB, .decJ].map encode = [0x00, 0x01, 0x02, 0x03, 0x04] ∧
  [Instr.encU, .encI, .encS, .encB, .encJ].map encode = [0x08, 0x09, 0x0A, 0x0B, 0x0C] ∧
  [Instr.riscv32, .riscv64, .branch, .jal, .call, .callPlt].map encode = [0x81, 0x82, 0x90, 0x91, 0x92, 0x93] ∧
  [Instr.pcrelHi20, .pcrelLo12I, .pcrelLo12S, .hi20, .lo12I, .lo12S].map encode =
    [0x97, 0x98, 0x99, 0x9A, 0x9B, 0x9C]

/-- R74: every `op` is exactly one operation or reserved by R73, no two operations share a value, and 234 are reserved. -/
def Obligations.OpDecodingIsTotalAndUnambiguous : Prop :=
  (∀ op : OpCode, OpCode.reserved op = true ↔ decodeOp op = none) ∧
  (∀ (op : OpCode) (i : Instr), decodeOp op = some i ↔ op = encode i) ∧
  ((List.range 256).filter fun n => OpCode.reserved (BitVec.ofNat 8 n)).length = 234

/-- A few op codes written out bit by bit from R71 and R72, one of each family. -/
def Obligations.WrittenOutCodesDecode : Prop :=
  decodeOp 0b00000011 = some .decB ∧ decodeOp 0b00001010 = some .encS ∧ decodeOp 0b10000010 = some .riscv64 ∧
  decodeOp 0b10010111 = some .pcrelHi20 ∧ decodeOp 0b10011011 = some .lo12I ∧ decodeOp 0b10010001 = some .jal ∧
  decodeOp 0b10010010 = some .call ∧ decodeOp 0b00000101 = none ∧ decodeOp 0b10010100 = none

/-! ### Decode operations -/

/-- R102. -/
def Obligations.DecUGivesTheTopTwentyBits : Prop :=
  ∀ s : State, exec .decU s = .next { s with outs :=
    { res0 := (s.ins.wordIn.extractLsb 31 12 ++ 0#12).signExtend 64, res1 := 0, err := 0 } }

/-- R103. -/
def Obligations.DecIGivesTheTopTwelveBits : Prop :=
  ∀ s : State, exec .decI s = .next { s with outs :=
    { res0 := (s.ins.wordIn.extractLsb 31 20).signExtend 64, res1 := 0, err := 0 } }

/-- R104. -/
def Obligations.DecSJoinsTheTwoFields : Prop :=
  ∀ s : State, exec .decS s = .next { s with outs :=
    { res0 := (s.ins.wordIn.extractLsb 31 25 ++ s.ins.wordIn.extractLsb 11 7).signExtend 64, res1 := 0, err := 0 } }

/-- R105. -/
def Obligations.DecBReassemblesThirteenBits : Prop :=
  ∀ s : State, let w := s.ins.wordIn
    exec .decB s = .next { s with outs :=
      { res0 := (w.extractLsb 31 31 ++ w.extractLsb 7 7 ++ w.extractLsb 30 25 ++ w.extractLsb 11 8 ++ 0#1).signExtend 64
        res1 := 0
        err := 0 } }

/-- R106. -/
def Obligations.DecJReassemblesTwentyOneBits : Prop :=
  ∀ s : State, let w := s.ins.wordIn
    exec .decJ s = .next { s with outs :=
      { res0 := (w.extractLsb 31 31 ++ w.extractLsb 19 12 ++ w.extractLsb 20 20 ++ w.extractLsb 30 21 ++ 0#1).signExtend 64
        res1 := 0
        err := 0 } }

/-- R107: the shift-and-mask forms of the five decodes. -/
def Obligations.DecodesEqualShiftAndMaskForms : Prop :=
  ∀ s : State, let w := s.ins.wordIn
    exec .decU s = .next { s with outs := { res0 := (w &&& 0xFFFFF000#32).signExtend 64, res1 := 0, err := 0 } } ∧
    exec .decI s = .next { s with outs := { res0 := (w.sshiftRight 20).signExtend 64, res1 := 0, err := 0 } } ∧
    exec .decS s = .next { s with outs :=
      { res0 := ((w.sshiftRight 20 &&& ~~~0x1F#32) ||| (w >>> (7 : Nat) &&& 0x1F#32)).signExtend 64, res1 := 0, err := 0 } } ∧
    exec .decB s = .next { s with outs :=
      { res0 := ((w.sshiftRight 19 &&& ~~~0xFFF#32) ||| (w >>> (20 : Nat) &&& 0x7E0#32) ||| (w <<< (4 : Nat) &&& 0x800#32) |||
          (w >>> (7 : Nat) &&& 0x1E#32)).signExtend 64
        res1 := 0
        err := 0 } } ∧
    exec .decJ s = .next { s with outs :=
      { res0 := ((w.sshiftRight 11 &&& ~~~0xFFFFF#32) ||| (w &&& 0xFF000#32) ||| (w >>> (9 : Nat) &&& 0x800#32) |||
          (w >>> (20 : Nat) &&& 0x7FE#32)).signExtend 64
        res1 := 0
        err := 0 } }

/-- R101, R66: two words decode alike under a format exactly when they agree on its field mask. "Only if" says that the mask
holds no bit the decode ignores. Bits 6:0 are outside every mask. -/
def Obligations.DecodeReadsExactlyItsFieldMask : Prop :=
  (∀ (f : Format) (s : State) (w w' : Word),
    (w &&& fieldMask f = w' &&& fieldMask f ↔
      ∃ o : Outputs, exec f.decoder (s.driveWord w) = .next { s.driveWord w with outs := o } ∧
        exec f.decoder (s.driveWord w') = .next { s.driveWord w' with outs := o })) ∧
  (∀ f : Format, fieldMask f &&& 0x7F = 0)

/-- R108: each decode's result lies in its format's legal value set. -/
def Obligations.DecodedImmediatesAreLegal : Prop :=
  ∀ s : State,
    (∃ t, exec .decU s = .next t ∧ t.outs.res0.toInt % 4096 = 0 ∧
      -2147483648 ≤ t.outs.res0.toInt ∧ t.outs.res0.toInt ≤ 2147479552) ∧
    (∃ t, exec .decI s = .next t ∧ -2048 ≤ t.outs.res0.toInt ∧ t.outs.res0.toInt ≤ 2047) ∧
    (∃ t, exec .decS s = .next t ∧ -2048 ≤ t.outs.res0.toInt ∧ t.outs.res0.toInt ≤ 2047) ∧
    (∃ t, exec .decB s = .next t ∧ t.outs.res0.toInt % 2 = 0 ∧
      -4096 ≤ t.outs.res0.toInt ∧ t.outs.res0.toInt ≤ 4094) ∧
    (∃ t, exec .decJ s = .next t ∧ t.outs.res0.toInt % 2 = 0 ∧
      -1048576 ≤ t.outs.res0.toInt ∧ t.outs.res0.toInt ≤ 1048574) ∧
    (∀ f : Format, ∃ t u, exec f.decoder s = .next t ∧ exec f.encoder (t.driveImm t.outs.low) = .next u ∧
      u.outs.err = 0)

/-! ### Encode operations -/

/-- R111. -/
def Obligations.EncUPacksOrRefusesLowBits : Prop :=
  ∀ s : State, let v := s.ins.immIn
    exec .encU s = .next { s with outs :=
      (if v.extractLsb 11 0 ≠ 0#12 then { res0 := 0, res1 := 0, err := 1 }
      else { res0 := (v.extractLsb 31 12 ++ 0#12).setWidth 64, res1 := 0, err := 0 }) }

/-- R112. -/
def Obligations.EncIPacksTwelveBits : Prop :=
  ∀ s : State, let v := s.ins.immIn
    exec .encI s = .next { s with outs :=
      (if v.toInt < -2048 ∨ v.toInt > 2047 then { res0 := 0, res1 := 0, err := 1 }
      else { res0 := (v.extractLsb 11 0 ++ 0#20).setWidth 64, res1 := 0, err := 0 }) }

/-- R113. -/
def Obligations.EncSSplitsTwelveBits : Prop :=
  ∀ s : State, let v := s.ins.immIn
    exec .encS s = .next { s with outs :=
      (if v.toInt < -2048 ∨ v.toInt > 2047 then { res0 := 0, res1 := 0, err := 1 }
      else { res0 := (v.extractLsb 11 5 ++ 0#13 ++ v.extractLsb 4 0 ++ 0#7).setWidth 64, res1 := 0, err := 0 }) }

/-- R114. -/
def Obligations.EncBScattersThirteenBits : Prop :=
  ∀ s : State, let v := s.ins.immIn
    exec .encB s = .next { s with outs :=
      (if v.toInt < -4096 ∨ v.toInt > 4094 ∨ v.extractLsb 0 0 = 1#1 then { res0 := 0, res1 := 0, err := 1 }
      else
        { res0 := (v.extractLsb 12 12 ++ v.extractLsb 10 5 ++ 0#13 ++ v.extractLsb 4 1 ++ v.extractLsb 11 11 ++
            0#7).setWidth 64
          res1 := 0
          err := 0 }) }

/-- R115. -/
def Obligations.EncJScattersTwentyOneBits : Prop :=
  ∀ s : State, let v := s.ins.immIn
    exec .encJ s = .next { s with outs :=
      (if v.toInt < -1048576 ∨ v.toInt > 1048574 ∨ v.extractLsb 0 0 = 1#1 then { res0 := 0, res1 := 0, err := 1 }
      else
        { res0 := (v.extractLsb 20 20 ++ v.extractLsb 10 1 ++ v.extractLsb 11 11 ++ v.extractLsb 19 12 ++
            0#12).setWidth 64
          res1 := 0
          err := 0 }) }

/-- R110: an encode succeeds exactly on its format's legal values, and then drives a 32-bit word that is zero outside the
field mask. -/
def Obligations.EncodeStaysInItsFieldMask : Prop :=
  ∀ (f : Format) (s : State), ∃ o : Outputs, exec f.encoder s = .next { s with outs := o } ∧ o.res1 = 0 ∧
    (legalImmediate f s.ins.immIn.toInt = true → o.err = 0 ∧ o.res0 = o.low.setWidth 64 ∧ o.low &&& ~~~fieldMask f = 0) ∧
    (legalImmediate f s.ins.immIn.toInt = false → o.err = 1 ∧ o.res0 = 0)

/-- R116: for every format, decoding an encoded legal value gives it back, and encoding a decoded word gives back its field
bits. -/
def Obligations.EveryFormatRoundTrips : Prop :=
  (∀ (f : Format) (s : State) (v : Word), legalImmediate f v.toInt = true →
    ∃ t : State, exec f.encoder (s.driveImm v) = .next t ∧ t.outs.err = 0 ∧
      exec f.decoder (t.driveWord t.outs.low) = .next { t.driveWord t.outs.low with outs :=
        { res0 := v.signExtend 64, res1 := 0, err := 0 } }) ∧
  (∀ (f : Format) (s : State), ∃ t : State, exec f.decoder s = .next t ∧
    exec f.encoder (t.driveImm t.outs.low) = .next { t.driveImm t.outs.low with outs :=
      { res0 := (s.ins.wordIn &&& fieldMask f).setWidth 64, res1 := 0, err := 0 } })

/-- R117: merging the encoded bits of a legal value into any word of the format gives a word that decodes to the value and keeps
its other bits. The merge is the host's. -/
def Obligations.MergedWordDecodesToTheImmediate : Prop :=
  ∀ (f : Format) (s : State) (v w : Word), legalImmediate f v.toInt = true →
    ∃ t : State, exec f.encoder (s.driveImm v) = .next t ∧
      let merged := (w &&& ~~~fieldMask f) ||| t.outs.low
      merged &&& ~~~fieldMask f = w &&& ~~~fieldMask f ∧
      exec f.decoder (t.driveWord merged) = .next { t.driveWord merged with outs :=
        { res0 := v.signExtend 64, res1 := 0, err := 0 } }

/-! ### Direct words -/

/-- R142. -/
def Obligations.Riscv32GivesTheSumOrRangeError : Prop :=
  ∀ s : State, let v := absoluteSum s.ins
    exec .riscv32 s = .next { s with outs :=
      (if v < -2147483648 ∨ v > 4294967295 then { res0 := 0, res1 := 0, err := 1 }
      else { res0 := (BitVec.ofInt 32 v).setWidth 64, res1 := 0, err := 0 }) }

/-- R143. -/
def Obligations.Riscv64GivesTheSumOrRangeError : Prop :=
  ∀ s : State, let v := absoluteSum s.ins
    exec .riscv64 s = .next { s with outs :=
      (if v < -9223372036854775808 ∨ v > 18446744073709551615 then { res0 := 0, res1 := 0, err := 1 }
      else { res0 := BitVec.ofInt 64 v, res1 := 0, err := 0 }) }

/-! ### Splits -/

/-- R140: the two forms of `fitsHi`. -/
def Obligations.HiFitsExactlyInTheClosedRange : Prop :=
  ∀ x : Int, (-2147483648 ≤ hiImm x ∧ hiImm x ≤ 2147483648 - 4096) ↔ (-0x80000800 ≤ x ∧ x ≤ 0x7FFFF7FF)

/-- R141. -/
def Obligations.SplitHalvesReconstruct : Prop :=
  ∀ x : Int, hiImm x % 4096 = 0 ∧ -2048 ≤ loImm x ∧ loImm x ≤ 2047 ∧ hiImm x + loImm x = x

/-- R144. -/
def Obligations.PcrelHi20RoundsOrRangeError : Prop :=
  ∀ s : State, let x := relativeOffset s.ins
    exec .pcrelHi20 s = .next { s with outs :=
      (if x < -0x80000800 ∨ x > 0x7FFFF7FF then { res0 := 0, res1 := 0, err := 1 }
      else { res0 := (BitVec.ofInt 32 ((x + 0x800) / 4096 * 4096)).signExtend 64, res1 := 0, err := 0 }) }

/-- R145, R146. -/
def Obligations.PcrelLo12GivesTheLowTwelveBits : Prop :=
  ∀ (s : State) (i : Instr), i = .pcrelLo12I ∨ i = .pcrelLo12S →
    exec i s = .next { s with outs :=
      { res0 := (BitVec.ofInt 12 (relativeOffset s.ins)).signExtend 64, res1 := 0, err := 0 } }

/-- R147: only the upper bound can fail. -/
def Obligations.Hi20RoundsOrRangeError : Prop :=
  ∀ s : State, let x := absoluteSum s.ins
    exec .hi20 s = .next { s with outs :=
      (if x > 0x7FFFF7FF then { res0 := 0, res1 := 0, err := 1 }
      else { res0 := (BitVec.ofInt 32 ((x + 0x800) / 4096 * 4096)).signExtend 64, res1 := 0, err := 0 }) }

/-- R148, R149. -/
def Obligations.Lo12GivesTheLowTwelveBits : Prop :=
  ∀ (s : State) (i : Instr), i = .lo12I ∨ i = .lo12S →
    exec i s = .next { s with outs :=
      { res0 := (BitVec.ofInt 12 (absoluteSum s.ins)).signExtend 64, res1 := 0, err := 0 } }

/-- R150: where the hi half does not fail, hi and lo add up to the offset or the address. -/
def Obligations.SplitPairsAddUp : Prop :=
  (∀ (s t : State) (lo : Instr), lo = .pcrelLo12I ∨ lo = .pcrelLo12S → exec .pcrelHi20 s = .next t → t.outs.err = 0 →
    ∃ u : State, exec lo s = .next u ∧ u.outs.err = 0 ∧
      t.outs.res0.toInt + u.outs.res0.toInt = relativeOffset s.ins) ∧
  (∀ (s t : State) (lo : Instr), lo = .lo12I ∨ lo = .lo12S → exec .hi20 s = .next t → t.outs.err = 0 →
    ∃ u : State, exec lo s = .next u ∧ u.outs.err = 0 ∧
      t.outs.res0.toInt + u.outs.res0.toInt = absoluteSum s.ins)

/-! ### Displacements -/

/-- R151. -/
def Obligations.BranchGivesTheDisplacementOrRangeError : Prop :=
  ∀ s : State, let x := relativeOffset s.ins
    exec .branch s = .next { s with outs :=
      (if x < -4096 ∨ x > 4094 ∨ x % 2 = 1 then { res0 := 0, res1 := 0, err := 1 }
      else { res0 := (BitVec.ofInt 32 x).signExtend 64, res1 := 0, err := 0 }) }

/-- R152. -/
def Obligations.JalGivesTheDisplacementOrRangeError : Prop :=
  ∀ s : State, let x := relativeOffset s.ins
    exec .jal s = .next { s with outs :=
      (if x < -1048576 ∨ x > 1048574 ∨ x % 2 = 1 then { res0 := 0, res1 := 0, err := 1 }
      else { res0 := (BitVec.ofInt 32 x).signExtend 64, res1 := 0, err := 0 }) }

/-- R155: the sign of a displacement says on which side of the site the target lies. -/
def Obligations.DisplacementSignFollowsTheTarget : Prop :=
  ∀ (s t : State) (i : Instr), i = .branch ∨ i = .jal → exec i s = .next t → t.outs.err = 0 →
    (t.outs.res0.toInt > 0 ↔ absoluteSum s.ins > (s.ins.P.toNat : Int)) ∧
    (t.outs.res0.toInt < 0 ↔ absoluteSum s.ins < (s.ins.P.toNat : Int)) ∧
    (t.outs.res0.toInt = 0 ↔ absoluteSum s.ins = (s.ins.P.toNat : Int))

/-! ### Call pairs -/

/-- R153, R154: adjacency is tested first, then the range; the two kinds behave alike. -/
def Obligations.CallPairSplitsAfterAdjacency : Prop :=
  ∀ (s : State) (i : Instr), i = .call ∨ i = .callPlt →
    let x := relativeOffset s.ins
    exec i s = .next { s with outs :=
      (if (s.ins.Q.toNat : Int) ≠ (s.ins.P.toNat : Int) + 4 then { res0 := 0, res1 := 0, err := 2 }
      else if x < -0x80000800 ∨ x > 0x7FFFF7FF then { res0 := 0, res1 := 0, err := 1 }
      else
        { res0 := (BitVec.ofInt 32 ((x + 0x800) / 4096 * 4096)).signExtend 64
          res1 := (BitVec.ofInt 12 x).signExtend 32
          err := 0 }) }

/-- R153: "P = 2^ADDR_W - 4 gives AdjacencyError for every Q", and so does every higher P. -/
def Obligations.CallAtTheTopOfTheAddressesIsNeverAdjacent : Prop :=
  ∀ (s : State) (i : Instr), i = .call ∨ i = .callPlt → s.ins.P.toNat + 4 ≥ 2 ^ s.build.addrW →
    exec i s = .next { s with outs := { res0 := 0, res1 := 0, err := 2 } }

/-- R141, R153: the two halves of a call that succeeds add up to the offset from P. -/
def Obligations.CallHalvesAddUp : Prop :=
  ∀ (s t : State) (i : Instr), i = .call ∨ i = .callPlt → exec i s = .next t → t.outs.err = 0 →
    t.outs.res0.toInt + t.outs.res1.toInt = relativeOffset s.ins

/-! ### Laws of the whole block -/

/-- R156: the absolute kinds do not depend on P or Q, and the PC-relative kinds depend on S, A and P only through S + A - P (a
call on Q - P too). -/
def Obligations.PositionIndependence : Prop :=
  (∀ (s : State) (p q : BitVec s.build.addrW) (i : Instr),
    i ∈ [Instr.riscv32, .riscv64, .hi20, .lo12I, .lo12S] → SameOutputs i s { s.ins with P := p, Q := q }) ∧
  (∀ (s : State) (ins : Inputs s.build.addrW) (i : Instr),
    i ∈ [Instr.pcrelHi20, .pcrelLo12I, .pcrelLo12S, .branch, .jal] →
    relativeOffset ins = relativeOffset s.ins → SameOutputs i s ins) ∧
  (∀ (s : State) (ins : Inputs s.build.addrW) (i : Instr), i = .call ∨ i = .callPlt →
    relativeOffset ins = relativeOffset s.ins →
    (ins.Q.toNat : Int) - (ins.P.toNat : Int) = (s.ins.Q.toNat : Int) - (s.ins.P.toNat : Int) → SameOutputs i s ins)

/-- R24: an input that the selected operation does not read never changes any output. -/
def Obligations.UnreadInputsAreDontCares : Prop :=
  (∀ (f : Format) (s : State) (ins : Inputs s.build.addrW), ins.wordIn = s.ins.wordIn → SameOutputs f.decoder s ins) ∧
  (∀ (f : Format) (s : State) (ins : Inputs s.build.addrW), ins.immIn = s.ins.immIn → SameOutputs f.encoder s ins) ∧
  (∀ (s : State) (ins : Inputs s.build.addrW) (i : Instr), i ∈ [Instr.riscv32, .riscv64, .hi20, .lo12I, .lo12S] →
    ins.S = s.ins.S → ins.A = s.ins.A → SameOutputs i s ins) ∧
  (∀ (s : State) (ins : Inputs s.build.addrW) (i : Instr),
    i ∈ [Instr.pcrelHi20, .pcrelLo12I, .pcrelLo12S, .branch, .jal] →
    ins.S = s.ins.S → ins.A = s.ins.A → ins.P = s.ins.P → SameOutputs i s ins) ∧
  (∀ (s : State) (ins : Inputs s.build.addrW) (i : Instr), i = .call ∨ i = .callPlt →
    ins.S = s.ins.S → ins.A = s.ins.A → ins.P = s.ins.P → ins.Q = s.ins.Q → SameOutputs i s ins)

/-- R75, R24: an evaluation written with exactly the operands its operation reads drives the same outputs whatever stands on the
ports it omits, and the operation it names is the one that runs. The range of numerals is the model's (log entry 12). -/
def Obligations.WrittenEvaluationFixesTheOutputs : Prop :=
  ∀ (s : State) (e : Evaluation) (driven : Inputs s.build.addrW), e.wellFormed s.build = true →
    ∃ o : Outputs,
      step { s with ins := evaluationInputs e s.ins } = .next { s with ins := evaluationInputs e s.ins, outs := o } ∧
      exec e.instr { s with ins := evaluationInputs e driven } =
        .next { s with ins := evaluationInputs e driven, outs := o }

/-- R157, R117: a relocation that succeeds gives a value its instruction can hold. Encoded and merged into ANY word, it is what
that word decodes to, the word's other bits being kept. For a call pair the same holds of the lo half in its I-type word. -/
def Obligations.PatchedInstructionCarriesTheRelocation : Prop :=
  (∀ (s t : State) (i : Instr) (f : Format) (w : Word), i.patchedFormat = some f → exec i s = .next t → t.outs.err = 0 →
    ∃ u : State, exec f.encoder (t.driveImm t.outs.low) = .next u ∧ u.outs.err = 0 ∧
      let merged := mergeField f w u.outs.low
      merged &&& ~~~fieldMask f = w &&& ~~~fieldMask f ∧
      exec f.decoder (u.driveWord merged) = .next { u.driveWord merged with outs :=
        { res0 := t.outs.res0, res1 := 0, err := 0 } }) ∧
  (∀ (s t : State) (i : Instr) (w : Word), i = .call ∨ i = .callPlt → exec i s = .next t → t.outs.err = 0 →
    ∃ u : State, exec .encI (t.driveImm t.outs.res1) = .next u ∧ u.outs.err = 0 ∧
      let merged := mergeField .i w u.outs.low
      merged &&& ~~~fieldMask .i = w &&& ~~~fieldMask .i ∧
      exec .decI (u.driveWord merged) = .next { u.driveWord merged with outs :=
        { res0 := t.outs.res1.signExtend 64, res1 := 0, err := 0 } })

/-! ### Errors -/

/-- R204: an error drives its code with res0 and res1 zero, and no evaluation that ends with an error code drives anything
else there. -/
def Obligations.ErrorsDriveZeros : Prop :=
  (∀ s : State, ∃ t : State, step s = .next t ∧ (t.outs.err ≠ 0 → t.outs.res0 = 0 ∧ t.outs.res1 = 0)) ∧
  (∀ s : State,
    s.conclude (.err .rangeError) = .next { s with outs := { res0 := 0, res1 := 0, err := 1 } } ∧
    s.conclude (.err .adjacencyError) = .next { s with outs := { res0 := 0, res1 := 0, err := 2 } } ∧
    s.conclude (.err .preconditionError) = .next { s with outs := { res0 := 0, res1 := 0, err := 3 } })

/-- R205: Precondition before Adjacency before Range. -/
def Obligations.ErrorPriority : Prop :=
  ∀ s : State, ∃ t : State, step s = .next t ∧
    (OpCode.reserved s.ins.op = true → t.outs.err = 3) ∧
    (OpCode.reserved s.ins.op = false → (s.ins.op = 0x92 ∨ s.ins.op = 0x93) →
      (s.ins.Q.toNat : Int) ≠ (s.ins.P.toNat : Int) + 4 → t.outs.err = 2) ∧
    (OpCode.reserved s.ins.op = false → (s.ins.op = 0x92 ∨ s.ins.op = 0x93) →
      (s.ins.Q.toNat : Int) = (s.ins.P.toNat : Int) + 4 →
      (relativeOffset s.ins < -0x80000800 ∨ relativeOffset s.ins > 0x7FFFF7FF) → t.outs.err = 1)

/-- R206, with the codes of R203: which operation raises which error, and when. -/
def Obligations.ErrorsOfEachOperation : Prop :=
  ∀ s : State, let v := s.ins.immIn.toInt; let x := relativeOffset s.ins; let y := absoluteSum s.ins
    (∀ f : Format, AnswersErr f.decoder s 0) ∧
    AnswersErr .encU s (rangeCode (s.ins.immIn.extractLsb 11 0 ≠ 0#12)) ∧
    AnswersErr .encI s (rangeCode (v < -2048 ∨ v > 2047)) ∧
    AnswersErr .encS s (rangeCode (v < -2048 ∨ v > 2047)) ∧
    AnswersErr .encB s (rangeCode (v % 2 = 1 ∨ v < -4096 ∨ v > 4094)) ∧
    AnswersErr .encJ s (rangeCode (v % 2 = 1 ∨ v < -1048576 ∨ v > 1048574)) ∧
    AnswersErr .riscv32 s (rangeCode (y < -2147483648 ∨ y > 4294967295)) ∧
    AnswersErr .riscv64 s (rangeCode (y < -9223372036854775808 ∨ y > 18446744073709551615)) ∧
    AnswersErr .pcrelHi20 s (rangeCode (x < -0x80000800 ∨ x > 0x7FFFF7FF)) ∧
    AnswersErr .pcrelLo12I s 0 ∧ AnswersErr .pcrelLo12S s 0 ∧
    AnswersErr .hi20 s (rangeCode (y > 0x7FFFF7FF)) ∧
    AnswersErr .lo12I s 0 ∧ AnswersErr .lo12S s 0 ∧
    AnswersErr .branch s (rangeCode (x % 2 = 1 ∨ x < -4096 ∨ x > 4094)) ∧
    AnswersErr .jal s (rangeCode (x % 2 = 1 ∨ x < -1048576 ∨ x > 1048574)) ∧
    (∀ i : Instr, i = .call ∨ i = .callPlt →
      AnswersErr i s (if (s.ins.Q.toNat : Int) ≠ (s.ins.P.toNat : Int) + 4 then 2
        else rangeCode (x < -0x80000800 ∨ x > 0x7FFFF7FF))) ∧
    (OpCode.reserved s.ins.op = true → ∃ t, step s = .next t ∧ t.outs.err = 3)

/-- Every step, from any state, leaves outputs that are lawful beside the op present (R108, R110, R157, R202, R204, R206). It
needs no premise on the state before, since nothing earlier reaches the outputs. -/
def Obligations.EveryStepLeavesLawfulOutputs : Prop :=
  ∀ s : State, ∃ t : State, step s = .next t ∧ t.Lawful

/-- The state after reset has lawful outputs. The reset inputs are the model's choice (log entry 2). -/
def Obligations.ResetOutputsAreLawful : Prop := State.reset.Lawful
end

