-- ==== Sys2Proof/Laws/Codec.lean ====
section
/-! SUPPORT. What reading and packing a format's immediate do to the bits of a word. -/

namespace Sys2Proof.Machine

/-- Packing what a word carries gives back the word's field bits. -/
theorem packImmediate_readImmediate (f : Format) (w : Word) :
    packImmediate f (readImmediate f w) = w &&& fieldMask f := by
  apply BitVec.eq_of_getLsbD_eq
  intro i hi
  cases f <;>
  · simp only [readImmediate, packImmediate, fieldMask, BitVec.getLsbD_signExtend, BitVec.getLsbD_append,
      BitVec.getLsbD_extractLsb, BitVec.getLsbD_and, BitVec.msb_eq_getLsbD_last]
    interval_cases i <;> simp

/-- A packed immediate has no bit outside its field mask. -/
theorem packImmediate_masked (f : Format) (imm : Word) :
    packImmediate f imm &&& fieldMask f = packImmediate f imm := by
  apply BitVec.eq_of_getLsbD_eq
  intro i hi
  cases f <;>
  · simp only [packImmediate, fieldMask, BitVec.getLsbD_append, BitVec.getLsbD_extractLsb, BitVec.getLsbD_and]
    interval_cases i <;> simp

/-- Reading looks only at the field mask. -/
theorem readImmediate_masked (f : Format) (w : Word) : readImmediate f (w &&& fieldMask f) = readImmediate f w := by
  apply BitVec.eq_of_getLsbD_eq
  intro i hi
  cases f <;>
  · simp only [readImmediate, fieldMask, BitVec.getLsbD_signExtend, BitVec.getLsbD_append, BitVec.getLsbD_extractLsb,
      BitVec.getLsbD_and, BitVec.msb_eq_getLsbD_last]
    interval_cases i <;> simp

end Sys2Proof.Machine
end

