-- ==== Sys2Proof/Laws/State.lean ====
section
/-! SUPPORT. One lemma per field per update of State, so that no proof unfolds a record update. -/

namespace Sys2Proof.Machine

@[simp] theorem State.present_build (s : State) (ins : Inputs s.build.addrW) (o : Outputs) :
    (s.present ins o).build = s.build := rfl
@[simp] theorem State.present_ins (s : State) (ins : Inputs s.build.addrW) (o : Outputs) :
    (s.present ins o).ins = ins := rfl
@[simp] theorem State.present_outs (s : State) (ins : Inputs s.build.addrW) (o : Outputs) :
    (s.present ins o).outs = o := rfl

@[simp] theorem State.driveWord_build (s : State) (w : Word) : (s.driveWord w).build = s.build := rfl
@[simp] theorem State.driveWord_ins (s : State) (w : Word) :
    (s.driveWord w).ins = { s.ins with wordIn := w } := rfl
@[simp] theorem State.driveWord_outs (s : State) (w : Word) : (s.driveWord w).outs = s.outs := rfl

@[simp] theorem State.driveImm_build (s : State) (v : Word) : (s.driveImm v).build = s.build := rfl
@[simp] theorem State.driveImm_ins (s : State) (v : Word) :
    (s.driveImm v).ins = { s.ins with immIn := v } := rfl
@[simp] theorem State.driveImm_outs (s : State) (v : Word) : (s.driveImm v).outs = s.outs := rfl

@[simp] theorem State.withFetchWord_build (s : State) (n w : Nat) : (s.withFetchWord n w).build = s.build := rfl
@[simp] theorem State.withFetchWord_op (s : State) (n w : Nat) :
    (s.withFetchWord n w).ins.op = BitVec.ofNat 8 w := rfl
@[simp] theorem State.withFetchWord_outs (s : State) (n w : Nat) : (s.withFetchWord n w).outs = s.outs := rfl

@[simp] theorem State.reset_build : State.reset.build = Config.defaultBuild := rfl
@[simp] theorem State.reset_outs : State.reset.outs = { res0 := 0, res1 := 0, err := 0 } := rfl

@[simp] theorem evaluationInputs_op {n : Nat} (e : Evaluation) (driven : Inputs n) :
    (evaluationInputs e driven).op = encode e.instr := rfl

@[simp] theorem operandValue_none {n : Nat} (driven : BitVec n) : operandValue driven none = driven := rfl
@[simp] theorem operandValue_some {n : Nat} (driven : BitVec n) (v : Int) :
    operandValue driven (some v) = BitVec.ofInt n v := rfl

end Sys2Proof.Machine
end

