-- ==== Sys2Proof/Laws/Ops.lean ====
section
/-! SUPPORT. One lemma per shared operation that says once everything it can do. -/

namespace Sys2Proof.Machine

/-! ### Driving a result -/

theorem conclude_eq_next (r : Result) (s : State) : s.conclude r = .next { s with outs := r.outputs } := rfl

theorem reservedOp_eq_next (s : State) :
    reservedOp s = .next { s with outs := { res0 := 0, res1 := 0, err := 3 } } := rfl

@[simp] theorem Result.outputs_immediate (v : Word) :
    Result.outputs (.ok (.immediate v)) = { res0 := v.signExtend 64, res1 := 0, err := 0 } := rfl
@[simp] theorem Result.outputs_word (w : Word) :
    Result.outputs (.ok (.word w)) = { res0 := w.setWidth 64, res1 := 0, err := 0 } := rfl
@[simp] theorem Result.outputs_dword (w : DWord) :
    Result.outputs (.ok (.dword w)) = { res0 := w, res1 := 0, err := 0 } := rfl
@[simp] theorem Result.outputs_pair (hi lo : Word) :
    Result.outputs (.ok (.pair hi lo)) = { res0 := hi.signExtend 64, res1 := lo, err := 0 } := rfl
@[simp] theorem Result.outputs_err (e : ErrorCause) :
    Result.outputs (.err e) = { res0 := 0, res1 := 0, err := e.code } := rfl

@[simp] theorem ErrorCause.code_ne_zero (e : ErrorCause) : e.code ≠ 0 := by cases e <;> decide

@[simp] theorem outputsOf_conclude (r : Result) (s : State) : outputsOf (s.conclude r) = r.outputs := rfl

/-- Every operation concludes with a result: nothing but the outputs changes. -/
theorem exec_concludes (i : Instr) (s : State) : ∃ r : Result, exec i s = s.conclude r := by
  cases i <;> exact ⟨_, rfl⟩

/-- The same of a step, which concludes with PreconditionError on a reserved `op`. -/
theorem step_concludes (s : State) :
    (∃ i r, decodeOp s.ins.op = some i ∧ step s = exec i s ∧ exec i s = s.conclude r) ∨
    (decodeOp s.ins.op = none ∧ step s = s.conclude (.err .preconditionError)) := by
  unfold step
  cases h : decodeOp s.ins.op with
  | none => exact .inr ⟨rfl, rfl⟩
  | some i =>
    obtain ⟨r, hr⟩ := exec_concludes i s
    exact .inl ⟨i, r, rfl, rfl, hr⟩

/-! ### The immediate codec -/

theorem encodeImmediate_cases (f : Format) (imm : Word) :
    (legalImmediate f imm.toInt = true ∧ encodeImmediate f imm = .ok (.word (packImmediate f imm))) ∨
    (legalImmediate f imm.toInt = false ∧ encodeImmediate f imm = .err .rangeError) := by
  unfold encodeImmediate
  cases h : legalImmediate f imm.toInt <;> simp

theorem exec_decoder (f : Format) (s : State) :
    exec f.decoder s = s.conclude (.ok (.immediate (readImmediate f s.ins.wordIn))) := by
  cases f <;> rfl

theorem exec_encoder (f : Format) (s : State) :
    exec f.encoder s = s.conclude (encodeImmediate f s.ins.immIn) := by
  cases f <;> rfl

/-! ### The split -/

/-- The hi immediate by division (R12: a shift right is the floor of the quotient). -/
theorem hiImm_eq_div (x : Int) : hiImm x = (x + 2048) / 4096 * 4096 := by
  simp [hiImm, hi20Field, Int.shiftRight_eq_div_pow]

/-- The lo immediate by remainder. -/
theorem loImm_eq_emod (x : Int) : loImm x = (x + 2048) % 4096 - 2048 := by
  simp only [loImm, BitVec.toInt_ofInt, Int.bmod_def]
  split <;> omega

theorem splitHi_cases (x : Int) :
    (fitsHi x = true ∧ splitHi x = .ok (.immediate (BitVec.ofInt 32 (hiImm x)))) ∨
    (fitsHi x = false ∧ splitHi x = .err .rangeError) := by
  unfold splitHi
  cases h : fitsHi x <;> simp

theorem displacement_cases (f : Format) (x : Int) :
    (legalImmediate f x = true ∧ displacement f x = .ok (.immediate (BitVec.ofInt 32 x))) ∨
    (legalImmediate f x = false ∧ displacement f x = .err .rangeError) := by
  unfold displacement
  cases h : legalImmediate f x <;> simp

theorem callPair_cases {n : Nat} (ins : Inputs n) :
    (ins.q ≠ ins.p + 4 ∧ callPair ins = .err .adjacencyError) ∨
    (ins.q = ins.p + 4 ∧ fitsHi ins.xRel = true ∧
      callPair ins = .ok (.pair (BitVec.ofInt 32 (hiImm ins.xRel)) (BitVec.ofInt 32 (loImm ins.xRel)))) ∨
    (ins.q = ins.p + 4 ∧ fitsHi ins.xRel = false ∧ callPair ins = .err .rangeError) := by
  unfold callPair
  by_cases hq : ins.q = ins.p + 4
  · cases h : fitsHi ins.xRel <;> simp [hq, Config.callPairOffset]
  · simp [hq, Config.callPairOffset]

theorem fitsWord_iff (n : Nat) (v : Int) : fitsWord n v = true ↔ -2 ^ (n - 1) ≤ v ∧ v ≤ 2 ^ n - 1 := by
  simp [fitsWord]

end Sys2Proof.Machine
end

