-- ==== Sys2Proof/Laws/PerInstr.lean ====
section
/-! SUPPORT. The family Encodes: each operation's op code decodes to it and is not reserved (spec/30_encoding.md R71 to R74). -/

namespace Sys2Proof.Laws.Encodes

/-- The op code of `i` selects `i` and is not one of the reserved codes. -/
def Statement (i : Instr) : Prop := decodeOp (encode i) = some i ∧ OpCode.reserved (encode i) = false

theorem decU : Statement .decU := ⟨rfl, rfl⟩
theorem decI : Statement .decI := ⟨rfl, rfl⟩
theorem decS : Statement .decS := ⟨rfl, rfl⟩
theorem decB : Statement .decB := ⟨rfl, rfl⟩
theorem decJ : Statement .decJ := ⟨rfl, rfl⟩
theorem encU : Statement .encU := ⟨rfl, rfl⟩
theorem encI : Statement .encI := ⟨rfl, rfl⟩
theorem encS : Statement .encS := ⟨rfl, rfl⟩
theorem encB : Statement .encB := ⟨rfl, rfl⟩
theorem encJ : Statement .encJ := ⟨rfl, rfl⟩
theorem riscv32 : Statement .riscv32 := ⟨rfl, rfl⟩
theorem riscv64 : Statement .riscv64 := ⟨rfl, rfl⟩
theorem branch : Statement .branch := ⟨rfl, rfl⟩
theorem jal : Statement .jal := ⟨rfl, rfl⟩
theorem call : Statement .call := ⟨rfl, rfl⟩
theorem callPlt : Statement .callPlt := ⟨rfl, rfl⟩
theorem pcrelHi20 : Statement .pcrelHi20 := ⟨rfl, rfl⟩
theorem pcrelLo12I : Statement .pcrelLo12I := ⟨rfl, rfl⟩
theorem pcrelLo12S : Statement .pcrelLo12S := ⟨rfl, rfl⟩
theorem hi20 : Statement .hi20 := ⟨rfl, rfl⟩
theorem lo12I : Statement .lo12I := ⟨rfl, rfl⟩
theorem lo12S : Statement .lo12S := ⟨rfl, rfl⟩

end Sys2Proof.Laws.Encodes
end

