-- ==== Sys2Proof/Tests/Slice0.lean ====
section
/-! SUPPORT. The model's own tests. Expected results are the vectors of spec/95_test_vectors.md (named in each docstring) and words
written out from spec/30_encoding.md, never the model's own answers. The witnesses at the end show that the hypotheses of every
statement can be met together. -/

namespace Sys2Proof.Machine.Tests

/-- The outputs of an evaluation of R75 on the default block, with zeros on the ports it omits. -/
def outputsFor (e : Evaluation) : Outputs :=
  EVAL Config.defaultBuild (evaluationInputs e (Inputs.zero Config.defaultBuild.addrW))

/-- The default block with an `op` and the calculator's inputs present. -/
def relocState (op : OpCode) (S : BitVec 64) (A : Word) (P Q : BitVec 64) : State :=
  { build := Config.defaultBuild
    ins := { op := op, wordIn := 0, immIn := 0, S := S, A := A, P := P, Q := Q }
    outs := { res0 := 0, res1 := 0, err := 0 } }

/-! ### Op codes written out from R71 and R72, one of each family and the reserved cases of R73 -/

theorem test_decode_codec_decode : decodeOp 0b00000100 = some .decJ := by decide
theorem test_decode_codec_encode : decodeOp 0b00001001 = some .encI := by decide
theorem test_decode_direct_word : decodeOp 0b10000001 = some .riscv32 := by decide
theorem test_decode_displacement : decodeOp 0b10010000 = some .branch := by decide
theorem test_decode_call : decodeOp 0b10010011 = some .callPlt := by decide
theorem test_decode_pcrel : decodeOp 0b10011000 = some .pcrelLo12I := by decide
theorem test_decode_absolute : decodeOp 0b10011010 = some .hi20 := by decide
/-- The rest of the rows, in the order of R71 and R72. -/
theorem test_decode_other_rows :
    [0b00000000, 0b00000001, 0b00000010, 0b00000011, 0b00001000, 0b00001010, 0b00001011, 0b00001100,
      0b10000010, 0b10010001, 0b10010010, 0b10010111, 0b10011001, 0b10011011, 0b10011100].map decodeOp =
    [some .decU, some .decI, some .decS, some .decB, some .encU, some .encS, some .encB, some .encJ,
      some .riscv64, some .jal, some .call, some .pcrelHi20, some .pcrelLo12S, some .lo12I, some .lo12S] := by decide
theorem test_decode_table_word : decodeTableWord 8 0x92 = some .call := by decide
theorem test_decode_table_word_too_wide : decodeTableWord 16 0x192 = none := by decide

/-! ### WellFormed refuses: one ill-formed term for each check -/

/-- The reserved codes named in 95_test_vectors.md. -/
theorem test_reserved_codes : ∀ op ∈ [0x05#8, 0x07#8, 0x0D#8, 0x10#8, 0x40#8, 0x80#8, 0x83#8, 0x94#8, 0x96#8, 0x9D#8, 0xFF#8],
    OpCode.reserved op = true := by decide
theorem test_listed_code_is_not_reserved : OpCode.reserved 0x9C = false := by decide
theorem test_well_formed_call : Evaluation.wellFormed Config.defaultBuild
    { instr := .call, S := some 0x133456, A := some (-4), P := some 0x10000, Q := some 0x10004 } = true := by decide
theorem test_ill_formed_missing_operand : Evaluation.wellFormed Config.defaultBuild
    { instr := .call, S := some 0x133456, A := some 0, P := some 0x10000 } = false := by decide
theorem test_ill_formed_operand_not_read : Evaluation.wellFormed Config.defaultBuild
    { instr := .hi20, S := some 0, A := some 0, P := some 0 } = false := by decide
theorem test_ill_formed_word : Evaluation.wellFormed Config.defaultBuild
    { instr := .decU, word := some 0x100000000 } = false := by decide
theorem test_ill_formed_immediate : Evaluation.wellFormed Config.defaultBuild
    { instr := .encI, imm := some (-0x80000001) } = false := by decide
theorem test_ill_formed_symbol : Evaluation.wellFormed Config.defaultBuild
    { instr := .lo12I, S := some (2 ^ 64), A := some 0 } = false := by decide
theorem test_ill_formed_addend : Evaluation.wellFormed Config.defaultBuild
    { instr := .lo12I, S := some 0, A := some 0x80000000 } = false := by decide
theorem test_ill_formed_site : Evaluation.wellFormed Config.defaultBuild
    { instr := .jal, S := some 0, A := some 0, P := some (-1) } = false := by decide
theorem test_ill_formed_pair_address : Evaluation.wellFormed Config.defaultBuild
    { instr := .callPlt, S := some 0, A := some 0, P := some 0, Q := some (2 ^ 64) } = false := by decide

/-! ### Vectors: at most two an operation -/

/-- V-DU-4. -/
theorem test_decU_ignores_low_bits :
    outputsFor { instr := .decU, word := some 0x00000FFF } = { res0 := 0, res1 := 0, err := 0 } := by decide

/-- V-DU-2. -/
theorem test_decU_sign :
    outputsFor { instr := .decU, word := some 0x80000000 } = { res0 := 0xFFFFFFFF80000000, res1 := 0, err := 0 } := by decide

/-- V-DI-1. -/
theorem test_decI_most_negative :
    outputsFor { instr := .decI, word := some 0x80050513 } = { res0 := 0xFFFFFFFFFFFFF800, res1 := 0, err := 0 } := by decide

/-- V-DI-4. -/
theorem test_decI_ignores_low_bits :
    outputsFor { instr := .decI, word := some 0x000FFFFF } = { res0 := 0, res1 := 0, err := 0 } := by decide

/-- V-DS-6. -/
theorem test_decS_joins_fields :
    outputsFor { instr := .decS, word := some 0x80B52223 } = { res0 := 0xFFFFFFFFFFFFF804, res1 := 0, err := 0 } := by decide

/-- V-DS-5. -/
theorem test_decS_ignores_other_bits :
    outputsFor { instr := .decS, word := some 0x01FFF07F } = { res0 := 0, res1 := 0, err := 0 } := by decide

/-- V-DB-4. -/
theorem test_decB_bit_seven_to_eleven :
    outputsFor { instr := .decB, word := some 0x00000080 } = { res0 := 0x800, res1 := 0, err := 0 } := by decide

/-- V-DB-1, E1. -/
theorem test_decB_backward_branch :
    outputsFor { instr := .decB, word := some 0xFE000EE3 } = { res0 := 0xFFFFFFFFFFFFFFFC, res1 := 0, err := 0 } := by decide

/-- V-DJ-4. -/
theorem test_decJ_bit_twenty_to_eleven :
    outputsFor { instr := .decJ, word := some 0x00100000 } = { res0 := 0x800, res1 := 0, err := 0 } := by decide

/-- V-DJ-6. -/
theorem test_decJ_keeps_middle_field :
    outputsFor { instr := .decJ, word := some 0x000FFFFF } = { res0 := 0xFF000, res1 := 0, err := 0 } := by decide

/-- V-EU-3. -/
theorem test_encU_zero_extends :
    outputsFor { instr := .encU, imm := some (0x80000000) } = { res0 := 0x80000000, res1 := 0, err := 0 } := by decide

/-- V-EU-2. -/
theorem test_encU_low_bits :
    outputsFor { instr := .encU, imm := some (0x00123456) } = { res0 := 0, res1 := 0, err := 1 } := by decide

/-- V-EI-4. -/
theorem test_encI_minus_one :
    outputsFor { instr := .encI, imm := some (-1) } = { res0 := 0xFFF00000, res1 := 0, err := 0 } := by decide

/-- V-EI-5. -/
theorem test_encI_above :
    outputsFor { instr := .encI, imm := some (2048) } = { res0 := 0, res1 := 0, err := 1 } := by decide

/-- V-ES-6. -/
theorem test_encS_splits :
    outputsFor { instr := .encS, imm := some (0x678) } = { res0 := 0x66000C00, res1 := 0, err := 0 } := by decide

/-- V-ES-8. -/
theorem test_encS_above :
    outputsFor { instr := .encS, imm := some (2048) } = { res0 := 0, res1 := 0, err := 1 } := by decide

/-- V-EB-1. -/
theorem test_encB_backward :
    outputsFor { instr := .encB, imm := some (-4) } = { res0 := 0xFE000E80, res1 := 0, err := 0 } := by decide

/-- V-EB-8. -/
theorem test_encB_odd :
    outputsFor { instr := .encB, imm := some (3) } = { res0 := 0, res1 := 0, err := 1 } := by decide

/-- V-EJ-1. -/
theorem test_encJ_backward :
    outputsFor { instr := .encJ, imm := some (-4) } = { res0 := 0xFFDFF000, res1 := 0, err := 0 } := by decide

/-- V-EJ-6. -/
theorem test_encJ_above :
    outputsFor { instr := .encJ, imm := some (1048576) } = { res0 := 0, res1 := 0, err := 1 } := by decide

/-- V-W-2. -/
theorem test_riscv32_minus_one :
    outputsFor { instr := .riscv32, S := some 0, A := some (-1) } = { res0 := 0xFFFFFFFF, res1 := 0, err := 0 } := by decide

/-- V-W-3. -/
theorem test_riscv32_above :
    outputsFor { instr := .riscv32, S := some 0xFFFFFFFF, A := some (1) } = { res0 := 0, res1 := 0, err := 1 } := by decide

/-- V-W-7. -/
theorem test_riscv64_minus_one :
    outputsFor { instr := .riscv64, S := some 0, A := some (-1) } = { res0 := 0xFFFFFFFFFFFFFFFF, res1 := 0, err := 0 } := by decide

/-- V-W-8. -/
theorem test_riscv64_above :
    outputsFor { instr := .riscv64, S := some 0xFFFFFFFFFFFFFFFF, A := some (1) } = { res0 := 0, res1 := 0, err := 1 } := by decide

/-- V-BR-4. -/
theorem test_branch_lowest :
    outputsFor { instr := .branch, S := some 0x1000, A := some (0), P := some 0x2000 } = { res0 := 0xFFFFFFFFFFFFF000, res1 := 0, err := 0 } := by decide

/-- V-BR-7. -/
theorem test_branch_odd :
    outputsFor { instr := .branch, S := some 0x1003, A := some (0), P := some 0x1000 } = { res0 := 0, res1 := 0, err := 1 } := by decide

/-- V-J-2. -/
theorem test_jal_highest :
    outputsFor { instr := .jal, S := some 0xFFFFE, A := some (0), P := some 0 } = { res0 := 0xFFFFE, res1 := 0, err := 0 } := by decide

/-- V-J-4. -/
theorem test_jal_above :
    outputsFor { instr := .jal, S := some 0x100000, A := some (0), P := some 0 } = { res0 := 0, res1 := 0, err := 1 } := by decide

/-- V-C-2. -/
theorem test_call_rounds_up :
    outputsFor { instr := .call, S := some 0x10800, A := some (0), P := some 0x10000, Q := some 0x10004 } = { res0 := 0x1000, res1 := 0xFFFFF800, err := 0 } := by decide

/-- V-C-6. -/
theorem test_call_adjacency_first :
    outputsFor { instr := .call, S := some 0x7FFFF800, A := some (0), P := some 0, Q := some 8 } = { res0 := 0, res1 := 0, err := 2 } := by decide

/-- V-C-8. -/
theorem test_callPlt_as_call :
    outputsFor { instr := .callPlt, S := some 0x133456, A := some (0), P := some 0x10000, Q := some 0x10004 } = { res0 := 0x123000, res1 := 0x456, err := 0 } := by decide

/-- V-C-7 for CALL, with R154. -/
theorem test_callPlt_top_of_addresses :
    outputsFor { instr := .callPlt, S := some 0, A := some (0), P := some 0xFFFFFFFFFFFFFFFC, Q := some 0 } = { res0 := 0, res1 := 0, err := 2 } := by decide

/-- V-HI-5. -/
theorem test_pcrelHi20_lowest :
    outputsFor { instr := .pcrelHi20, S := some 0, A := some (0), P := some 0x80000800 } = { res0 := 0xFFFFFFFF80000000, res1 := 0, err := 0 } := by decide

/-- V-HI-4. -/
theorem test_pcrelHi20_above :
    outputsFor { instr := .pcrelHi20, S := some 0x7FFFF800, A := some (0), P := some 0 } = { res0 := 0, res1 := 0, err := 1 } := by decide

/-- V-LO-2. -/
theorem test_pcrelLo12I_half :
    outputsFor { instr := .pcrelLo12I, S := some 0x800, A := some (0), P := some 0 } = { res0 := 0xFFFFFFFFFFFFF800, res1 := 0, err := 0 } := by decide

/-- V-LO-4. -/
theorem test_pcrelLo12I_negative_offset :
    outputsFor { instr := .pcrelLo12I, S := some 0, A := some (0), P := some 1 } = { res0 := 0xFFFFFFFFFFFFFFFF, res1 := 0, err := 0 } := by decide

/-- V-LO-7. -/
theorem test_pcrelLo12S_half :
    outputsFor { instr := .pcrelLo12S, S := some 0x12800, A := some (0), P := some 0 } = { res0 := 0xFFFFFFFFFFFFF800, res1 := 0, err := 0 } := by decide

/-- V-HI-10. -/
theorem test_hi20_rounds_up :
    outputsFor { instr := .hi20, S := some 0x12800, A := some (0) } = { res0 := 0x13000, res1 := 0, err := 0 } := by decide

/-- V-HI-15. -/
theorem test_hi20_above :
    outputsFor { instr := .hi20, S := some 0x7FFFF800, A := some (0) } = { res0 := 0, res1 := 0, err := 1 } := by decide

/-- V-LO-11. -/
theorem test_lo12I_wide_address :
    outputsFor { instr := .lo12I, S := some 0xFFFFFFFF12345678, A := some (0) } = { res0 := 0x678, res1 := 0, err := 0 } := by decide

/-- V-LO-12. -/
theorem test_lo12S_addend :
    outputsFor { instr := .lo12S, S := some 0x12800, A := some (4) } = { res0 := 0xFFFFFFFFFFFFF804, res1 := 0, err := 0 } := by decide

/-- 95_test_vectors.md: the vector for 0x80 has inputs that would make CALL fail with AdjacencyError, and 0x96 those of P4. -/
theorem test_reserved_op_outputs :
    (EVAL Config.defaultBuild (relocState 0x80 0x7FFFF800 0 0 8).ins = { res0 := 0, res1 := 0, err := 3 }) ∧
    (EVAL Config.defaultBuild (relocState 0x96 0x7FFFF7FF 0 0 4).ins = { res0 := 0, res1 := 0, err := 3 }) := by decide

/-- A block with 128-bit addresses (R6): S = 2^100 + 4, P = 2^100 is a forward branch (expected from R151). -/
theorem test_wide_addresses :
    EVAL { addrWBeyond64 := 64 }
      { op := 0x90
        wordIn := 0
        immIn := 0
        S := 0x10000000000000000000000004
        A := 0
        P := 0x10000000000000000000000000
        Q := 0 } = { res0 := 4, res1 := 0, err := 0 } := by decide

/-- Program P1, step 4: the merged word of the far call (R117). -/
theorem test_merge_far_call : mergeField .u 0x00000097 0x00123000 = 0x00123097 := by decide

/-- The reset state runs DEC_U of the zero word, which is 0 (R69). -/
theorem test_reset_steps : ∃ t, step State.reset = .next t ∧ t.outs = { res0 := 0, res1 := 0, err := 0 } :=
  ⟨_, rfl, by decide⟩

/-! ### Witnesses: the hypotheses of the statements can be met together -/

theorem witness_StepRunsTheSelectedOperation :
    (∃ (s : State) (i : Instr), decodeOp s.ins.op = some i) ∧
    (∃ (nbits w : Nat) (i : Instr), decodeTableWord nbits w = some i) :=
  ⟨⟨State.reset, .decU, by decide⟩, ⟨8, 0x9C, .lo12S, by decide⟩⟩

theorem witness_PreconditionErrorExactlyOnReservedOp :
    (∃ s : State, OpCode.reserved s.ins.op = true) ∧ (∃ s : State, OpCode.reserved s.ins.op = false) :=
  ⟨⟨relocState 0xFF 0 0 0 0, by decide⟩, ⟨relocState 0x9C 0 0 0 0, by decide⟩⟩

theorem witness_OutputsDependOnAddressesAsNumbers : ∃ s t : State, s.build ≠ t.build ∧ t.ins.op = s.ins.op ∧
    t.ins.wordIn = s.ins.wordIn ∧ t.ins.immIn = s.ins.immIn ∧ t.ins.A = s.ins.A ∧ t.ins.S.toNat = s.ins.S.toNat ∧
    t.ins.P.toNat = s.ins.P.toNat ∧ t.ins.Q.toNat = s.ins.Q.toNat :=
  ⟨relocState 0x92 0xFFFFFFFFFFFFFFFF 0 0 4,
    { build := { addrWBeyond64 := 8 }
      ins := { op := 0x92, wordIn := 0, immIn := 0, S := 0xFFFFFFFFFFFFFFFF, A := 0, P := 0, Q := 4 }
      outs := { res0 := 0, res1 := 0, err := 0 } }, by decide⟩

/-- Both sides of the legality premises of EncodeStaysInItsFieldMask, EveryFormatRoundTrips and
MergedWordDecodesToTheImmediate: the bounds of every format are legal (R66) ... -/
theorem witness_legal_bounds :
    (∀ v ∈ [(-2147483648 : Int), 2147479552], legalImmediate .u v = true) ∧
    (∀ v ∈ [(-2048 : Int), 2047], legalImmediate .i v = true ∧ legalImmediate .s v = true) ∧
    (∀ v ∈ [(-4096 : Int), 4094], legalImmediate .b v = true) ∧
    (∀ v ∈ [(-1048576 : Int), 1048574], legalImmediate .j v = true) := by decide
/-- ... and the values next to them are not. -/
theorem witness_illegal_neighbours :
    (∀ v ∈ [(-2147483647 : Int), 2147479553], legalImmediate .u v = false) ∧
    (∀ v ∈ [(-2049 : Int), 2048], legalImmediate .i v = false ∧ legalImmediate .s v = false) ∧
    (∀ v ∈ [(-4098 : Int), -4095, 4095, 4096], legalImmediate .b v = false) ∧
    (∀ v ∈ [(-1048578 : Int), -1048575, 1048575, 1048576], legalImmediate .j v = false) := by decide
theorem witness_EveryFormatRoundTrips :
    ∀ f ∈ [Format.u, .i, .s, .b, .j], legalImmediate f (0x00000000 : Word).toInt = true := by decide
theorem witness_MergedWordDecodesToTheImmediate :
    ∃ v : Word, v ≠ 0 ∧ legalImmediate .j v.toInt = true := ⟨0xFFFFFFFC, by decide⟩
theorem witness_EncodeStaysInItsFieldMask :
    (∃ s : State, legalImmediate .b s.ins.immIn.toInt = true) ∧ (∃ s : State, legalImmediate .b s.ins.immIn.toInt = false) :=
  ⟨⟨State.reset.driveImm 4094, by decide⟩, ⟨State.reset.driveImm 4096, by decide⟩⟩

theorem witness_PcrelLo12GivesTheLowTwelveBits :
    ∃ i : Instr, (i = .pcrelLo12I ∨ i = .pcrelLo12S) := ⟨.pcrelLo12S, by decide⟩
theorem witness_Lo12GivesTheLowTwelveBits : ∃ i : Instr, (i = .lo12I ∨ i = .lo12S) := ⟨.lo12S, by decide⟩

/-- x = 0x7FFFF7FF, the largest offset the hi half takes (V-HI-3), for both clauses. -/
theorem witness_SplitPairsAddUp :
    (∃ (s t : State) (lo : Instr), (lo = .pcrelLo12I ∨ lo = .pcrelLo12S) ∧ exec .pcrelHi20 s = .next t ∧ t.outs.err = 0) ∧
    (∃ (s t : State) (lo : Instr), (lo = .lo12I ∨ lo = .lo12S) ∧ exec .hi20 s = .next t ∧ t.outs.err = 0) :=
  ⟨⟨relocState 0x97 0x7FFFF7FF 0 0 0, _, .pcrelLo12S, .inr rfl, rfl, by decide⟩,
    ⟨relocState 0x9A 0x7FFFF7FF 0 0 0, _, .lo12I, .inl rfl, rfl, by decide⟩⟩

/-- V-BR-4 and V-J-2: the ends of the two ranges. -/
theorem witness_DisplacementSignFollowsTheTarget :
    (∃ s t : State, exec .branch s = .next t ∧ t.outs.err = 0 ∧ t.outs.res0.toInt = -4096) ∧
    (∃ s t : State, exec .jal s = .next t ∧ t.outs.err = 0 ∧ t.outs.res0.toInt = 1048574) :=
  ⟨⟨relocState 0x90 0x1000 0 0x2000 0, _, rfl, by decide⟩, ⟨relocState 0x91 0xFFFFE 0 0 0, _, rfl, by decide⟩⟩

theorem witness_CallPairSplitsAfterAdjacency : ∃ i : Instr, (i = .call ∨ i = .callPlt) := ⟨.callPlt, by decide⟩

/-- V-C-7: P = 2^64 - 4. -/
theorem witness_CallAtTheTopOfTheAddressesIsNeverAdjacent :
    ∃ (s : State) (i : Instr), (i = .call ∨ i = .callPlt) ∧ s.ins.P.toNat + 4 ≥ 2 ^ s.build.addrW :=
  ⟨relocState 0x92 0 0 0xFFFFFFFFFFFFFFFC 0, .call, by decide⟩

/-- V-C-2. -/
theorem witness_CallHalvesAddUp :
    ∃ (s t : State) (i : Instr), (i = .call ∨ i = .callPlt) ∧ exec i s = .next t ∧ t.outs.err = 0 :=
  ⟨relocState 0x92 0x10800 0 0x10000 0x10004, _, .call, .inl rfl, rfl, by decide⟩

/-- V-AB-2: S and P (and Q) moved by 0x100000. -/
theorem witness_PositionIndependence :
    (∃ i : Instr, i ∈ [Instr.riscv32, .riscv64, .hi20, .lo12I, .lo12S]) ∧
    (∃ (s : State) (ins : Inputs s.build.addrW) (i : Instr),
      i ∈ [Instr.pcrelHi20, .pcrelLo12I, .pcrelLo12S, .branch, .jal] ∧ ins.P.toNat ≠ s.ins.P.toNat ∧
      relativeOffset ins = relativeOffset s.ins) ∧
    (∃ (s : State) (ins : Inputs s.build.addrW) (i : Instr), (i = .call ∨ i = .callPlt) ∧ ins.P.toNat ≠ s.ins.P.toNat ∧
      relativeOffset ins = relativeOffset s.ins ∧
      (ins.Q.toNat : Int) - (ins.P.toNat : Int) = (s.ins.Q.toNat : Int) - (s.ins.P.toNat : Int)) :=
  ⟨⟨.hi20, by decide⟩,
    ⟨relocState 0x97 0x133456 0 0x10000 0, (relocState 0x97 0x233456 0 0x110000 0).ins, .pcrelHi20, by decide⟩,
    ⟨relocState 0x92 0x133456 0 0x10000 0x10004, (relocState 0x92 0x233456 0 0x110000 0x110004).ins, .call, by decide⟩⟩

theorem witness_UnreadInputsAreDontCares :
    (∃ (s : State) (ins : Inputs s.build.addrW), ins.immIn ≠ s.ins.immIn ∧ ins.wordIn = s.ins.wordIn) ∧
    (∃ (s : State) (ins : Inputs s.build.addrW), ins.wordIn ≠ s.ins.wordIn ∧ ins.immIn = s.ins.immIn) ∧
    (∃ (s : State) (ins : Inputs s.build.addrW) (i : Instr), i ∈ [Instr.riscv32, .riscv64, .hi20, .lo12I, .lo12S] ∧
      ins.P.toNat ≠ s.ins.P.toNat ∧ ins.S = s.ins.S ∧ ins.A = s.ins.A) ∧
    (∃ (s : State) (ins : Inputs s.build.addrW) (i : Instr),
      i ∈ [Instr.pcrelHi20, .pcrelLo12I, .pcrelLo12S, .branch, .jal] ∧
      ins.Q.toNat ≠ s.ins.Q.toNat ∧ ins.S = s.ins.S ∧ ins.A = s.ins.A ∧ ins.P = s.ins.P) ∧
    (∃ (s : State) (ins : Inputs s.build.addrW) (i : Instr), (i = .call ∨ i = .callPlt) ∧
      ins.wordIn ≠ s.ins.wordIn ∧ ins.S = s.ins.S ∧ ins.A = s.ins.A ∧ ins.P = s.ins.P ∧ ins.Q = s.ins.Q) :=
  ⟨⟨State.reset, (State.reset.driveImm 1).ins, by decide⟩,
    ⟨State.reset, (State.reset.driveWord 1).ins, by decide⟩,
    ⟨State.reset, (relocState 0 0 0 1 1).ins, .riscv32, by decide⟩,
    ⟨State.reset, (relocState 0 0 0 0 1).ins, .jal, by decide⟩,
    ⟨State.reset, (State.reset.driveWord 1).ins, .callPlt, by decide⟩⟩

theorem witness_WrittenEvaluationFixesTheOutputs :
    ∃ (s : State) (e : Evaluation), e.wellFormed s.build = true :=
  ⟨State.reset, { instr := .jal, S := some 0x2000, A := some 0, P := some 0x1000 }, by decide⟩

/-- V-BR-6's neighbour x = -4096 for a patched format, V-C-2 for the call's lo half. -/
theorem witness_PatchedInstructionCarriesTheRelocation :
    (∃ (s t : State) (i : Instr) (f : Format), i.patchedFormat = some f ∧ exec i s = .next t ∧ t.outs.err = 0) ∧
    (∃ (s t : State) (i : Instr), (i = .call ∨ i = .callPlt) ∧ exec i s = .next t ∧ t.outs.err = 0) :=
  ⟨⟨relocState 0x90 0x1000 0 0x2000 0, _, .branch, .b, rfl, rfl, by decide⟩,
    ⟨relocState 0x93 0x10800 0 0x10000 0x10004, _, .callPlt, .inr rfl, rfl, by decide⟩⟩

/-- V-C-6, V-C-5 and the vector for 0x80: each clause, the third with Q = P + 4. -/
theorem witness_ErrorPriority :
    (∃ s : State, OpCode.reserved s.ins.op = true ∧ (s.ins.Q.toNat : Int) ≠ (s.ins.P.toNat : Int) + 4) ∧
    (∃ s : State, OpCode.reserved s.ins.op = false ∧ (s.ins.op = 0x92 ∨ s.ins.op = 0x93) ∧
      (s.ins.Q.toNat : Int) ≠ (s.ins.P.toNat : Int) + 4 ∧ relativeOffset s.ins > 0x7FFFF7FF) ∧
    (∃ s : State, OpCode.reserved s.ins.op = false ∧ (s.ins.op = 0x92 ∨ s.ins.op = 0x93) ∧
      (s.ins.Q.toNat : Int) = (s.ins.P.toNat : Int) + 4 ∧ relativeOffset s.ins > 0x7FFFF7FF) :=
  ⟨⟨relocState 0x80 0x7FFFF800 0 0 8, by decide⟩, ⟨relocState 0x92 0x7FFFF800 0 0 8, by decide⟩,
    ⟨relocState 0x93 0x7FFFF800 0 0 4, by decide⟩⟩

theorem witness_ErrorsOfEachOperation : ∃ s : State, OpCode.reserved s.ins.op = true :=
  ⟨relocState 0x0D 0 0 0 0, by decide⟩

end Sys2Proof.Machine.Tests
end

section
/-! PROOFS. The result of an evaluation as a function of the inputs alone: a step is `conclude` of that result, whatever the
width of the addresses. -/

namespace Sys2Proof.Machine

/-- The result of one operation, read off the inputs (the arms of `exec` without their state). -/
def resultOf {n : Nat} (i : Instr) (ins : Inputs n) : Result :=
  match i with
  | .decU => .ok (.immediate (readImmediate .u ins.wordIn))
  | .decI => .ok (.immediate (readImmediate .i ins.wordIn))
  | .decS => .ok (.immediate (readImmediate .s ins.wordIn))
  | .decB => .ok (.immediate (readImmediate .b ins.wordIn))
  | .decJ => .ok (.immediate (readImmediate .j ins.wordIn))
  | .encU => encodeImmediate .u ins.immIn
  | .encI => encodeImmediate .i ins.immIn
  | .encS => encodeImmediate .s ins.immIn
  | .encB => encodeImmediate .b ins.immIn
  | .encJ => encodeImmediate .j ins.immIn
  | .riscv32 => if fitsWord 32 ins.xAbs then .ok (.word (BitVec.ofInt 32 ins.xAbs)) else .err .rangeError
  | .riscv64 => if fitsWord 64 ins.xAbs then .ok (.dword (BitVec.ofInt 64 ins.xAbs)) else .err .rangeError
  | .branch => displacement .b ins.xRel
  | .jal => displacement .j ins.xRel
  | .call | .callPlt => callPair ins
  | .pcrelHi20 => splitHi ins.xRel
  | .pcrelLo12I | .pcrelLo12S => splitLo ins.xRel
  | .hi20 => splitHi ins.xAbs
  | .lo12I | .lo12S => splitLo ins.xAbs

/-- The result of one evaluation: the selected operation's, or PreconditionError for a reserved `op` (R202). -/
def evalResult {n : Nat} (ins : Inputs n) : Result :=
  match decodeOp ins.op with
  | some i => resultOf i ins
  | none => .err .preconditionError

theorem exec_eq_conclude_resultOf (i : Instr) (s : State) : exec i s = s.conclude (resultOf i s.ins) := by
  cases i <;> rfl

theorem step_eq_conclude_evalResult (s : State) : step s = s.conclude (evalResult s.ins) := by
  unfold step evalResult
  cases decodeOp s.ins.op with
  | none => rfl
  | some i => exact exec_eq_conclude_resultOf i s

/-- The ports of two blocks, possibly of different ADDR_W, carry the same operation and operands, the addresses compared
as unsigned numbers (R140). -/
structure Inputs.SameNumbers {m n : Nat} (x : Inputs m) (y : Inputs n) : Prop where
  op     : y.op = x.op
  wordIn : y.wordIn = x.wordIn
  immIn  : y.immIn = x.immIn
  A      : y.A = x.A
  S      : y.S.toNat = x.S.toNat
  P      : y.P.toNat = x.P.toNat
  Q      : y.Q.toNat = x.Q.toNat

section SameNumbers

variable {m n : Nat} {x : Inputs m} {y : Inputs n}

theorem Inputs.SameNumbers.p_eq (h : x.SameNumbers y) : y.p = x.p := congrArg Nat.cast h.P

theorem Inputs.SameNumbers.q_eq (h : x.SameNumbers y) : y.q = x.q := congrArg Nat.cast h.Q

theorem Inputs.SameNumbers.xAbs_eq (h : x.SameNumbers y) : y.xAbs = x.xAbs := by
  simp only [Inputs.xAbs, Inputs.s, Inputs.a, h.S, h.A]

theorem Inputs.SameNumbers.xRel_eq (h : x.SameNumbers y) : y.xRel = x.xRel :=
  congrArg₂ (· - ·) h.xAbs_eq h.p_eq

theorem Inputs.SameNumbers.callPair_eq (h : x.SameNumbers y) : callPair y = callPair x := by
  simp only [callPair, h.p_eq, h.q_eq, h.xRel_eq]

/-- Each operation reads `wordIn`, `immIn`, `x_abs`, `x_rel` or the call's adjacency, and these are the same numbers. -/
theorem Inputs.SameNumbers.resultOf_eq (h : x.SameNumbers y) (i : Instr) : resultOf i y = resultOf i x := by
  cases i with
  | decU | decI | decS | decB | decJ => simp only [resultOf, h.wordIn]
  | encU | encI | encS | encB | encJ => simp only [resultOf, h.immIn]
  | riscv32 | riscv64 | hi20 | lo12I | lo12S => simp only [resultOf, h.xAbs_eq]
  | branch | jal | pcrelHi20 | pcrelLo12I | pcrelLo12S => simp only [resultOf, h.xRel_eq]
  | call | callPlt => exact h.callPair_eq

theorem Inputs.SameNumbers.evalResult_eq (h : x.SameNumbers y) : evalResult y = evalResult x := by
  simp only [evalResult, h.op, h.resultOf_eq]

end SameNumbers

/-- Settles O9: both steps conclude with the one result that the common numbers determine (R6, R140). -/
theorem outputsDependOnAddressesAsNumbers : Obligations.OutputsDependOnAddressesAsNumbers := by
  intro s t hop hword himm hA hS hP hQ
  have same : s.ins.SameNumbers t.ins := ⟨hop, hword, himm, hA, hS, hP, hQ⟩
  refine ⟨(evalResult s.ins).outputs, step_eq_conclude_evalResult s, ?_⟩
  calc step t = t.conclude (evalResult t.ins) := step_eq_conclude_evalResult t
    _ = t.conclude (evalResult s.ins) := by rw [same.evalResult_eq]
    _ = .next { t with outs := (evalResult s.ins).outputs } := conclude_eq_next _ t

end Sys2Proof.Machine
end

section
/-! PROOFS. A step and each operation conclude with a result read off the inputs alone (R20, R21), so the outputs are a
function of the build parameters and the present inputs. -/

namespace Sys2Proof.Machine

theorem EVAL_eq_outputs_evalResult (b : Build) (ins : Inputs b.addrW) : EVAL b ins = (evalResult ins).outputs := by
  unfold EVAL
  rw [step_eq_conclude_evalResult, outputsOf_conclude]

theorem exec_eq_next (i : Instr) (s : State) : exec i s = .next { s with outs := (resultOf i s.ins).outputs } :=
  (exec_eq_conclude_resultOf i s).trans (conclude_eq_next _ s)

/-- Settles O7: each operation concludes with its result, and concluding drives the outputs alone (R20, R28, R44). -/
theorem everyOperationChangesOnlyTheOutputs : Obligations.EveryOperationChangesOnlyTheOutputs :=
  fun i s => ⟨(resultOf i s.ins).outputs, exec_eq_next i s⟩

/-- Settles O2: the step and EVAL, which is a step from blank outputs, conclude with the same result (R21, R44). -/
theorem stepDrivesEvalOfPresentInputs : Obligations.StepDrivesEvalOfPresentInputs := by
  intro s
  calc step s = s.conclude (evalResult s.ins) := step_eq_conclude_evalResult s
    _ = .next { s with outs := (evalResult s.ins).outputs } := conclude_eq_next _ s
    _ = .next { s with outs := EVAL s.build s.ins } := by rw [EVAL_eq_outputs_evalResult]

/-- Settles O4: O2 at the presented state, whose build parameters are those of `s` (R21, R33, R245). -/
theorem nothingEarlierReachesTheOutputs : Obligations.NothingEarlierReachesTheOutputs :=
  fun s ins unsettled => stepDrivesEvalOfPresentInputs (s.present ins unsettled)

end Sys2Proof.Machine
end

section
/-! PROOFS. An operation's result depends only on the ports that `Instr.reads` lists for it (R24). -/

namespace Sys2Proof

/-! ### The ports each family reads -/

theorem Format.decoder_reads_iff (f : Format) (p : Port) : f.decoder.reads p = true ↔ p = .wordIn := by
  cases f <;> simp [Format.decoder, Instr.reads]

theorem Format.encoder_reads_iff (f : Format) (p : Port) : f.encoder.reads p = true ↔ p = .immIn := by
  cases f <;> simp [Format.encoder, Instr.reads]

theorem Instr.absolute_reads_iff {i : Instr} (hi : i ∈ [Instr.riscv32, .riscv64, .hi20, .lo12I, .lo12S]) (p : Port) :
    i.reads p = true ↔ p = .S ∨ p = .A := by
  simp only [List.mem_cons, List.not_mem_nil, or_false] at hi
  rcases hi with rfl | rfl | rfl | rfl | rfl <;> simp [Instr.reads]

theorem Instr.relative_reads_iff {i : Instr} (hi : i ∈ [Instr.pcrelHi20, .pcrelLo12I, .pcrelLo12S, .branch, .jal])
    (p : Port) : i.reads p = true ↔ p = .S ∨ p = .A ∨ p = .P := by
  simp only [List.mem_cons, List.not_mem_nil, or_false] at hi
  rcases hi with rfl | rfl | rfl | rfl | rfl <;> simp [Instr.reads, or_assoc]

theorem Instr.call_reads_iff {i : Instr} (hi : i = .call ∨ i = .callPlt) (p : Port) :
    i.reads p = true ↔ p = .S ∨ p = .A ∨ p = .P ∨ p = .Q := by
  rcases hi with rfl | rfl <;> simp [Instr.reads, or_assoc]

namespace Machine

/-! ### Agreement on the ports read -/

/-- Two inputs of one block carry the same value on a port. -/
def Inputs.AgreeAt {n : Nat} (x y : Inputs n) : Port → Prop
  | .wordIn => y.wordIn = x.wordIn
  | .immIn => y.immIn = x.immIn
  | .S => y.S = x.S
  | .A => y.A = x.A
  | .P => y.P = x.P
  | .Q => y.Q = x.Q

section AgreeAt

variable {n : Nat} {x y : Inputs n}

theorem Inputs.xAbs_eq_of_agreeAt (hS : x.AgreeAt y .S) (hA : x.AgreeAt y .A) : y.xAbs = x.xAbs := by
  simp only [Inputs.AgreeAt] at hS hA
  simp only [Inputs.xAbs, Inputs.s, Inputs.a, hS, hA]

theorem Inputs.p_eq_of_agreeAt (hP : x.AgreeAt y .P) : y.p = x.p := congrArg (fun P => (P.toNat : Int)) hP

theorem Inputs.q_eq_of_agreeAt (hQ : x.AgreeAt y .Q) : y.q = x.q := congrArg (fun Q => (Q.toNat : Int)) hQ

theorem Inputs.xRel_eq_of_agreeAt (hS : x.AgreeAt y .S) (hA : x.AgreeAt y .A) (hP : x.AgreeAt y .P) :
    y.xRel = x.xRel :=
  congrArg₂ (· - ·) (xAbs_eq_of_agreeAt hS hA) (p_eq_of_agreeAt hP)

theorem callPair_eq_of_agreeAt (hS : x.AgreeAt y .S) (hA : x.AgreeAt y .A) (hP : x.AgreeAt y .P)
    (hQ : x.AgreeAt y .Q) : callPair y = callPair x := by
  simp only [callPair, Inputs.xRel_eq_of_agreeAt hS hA hP, Inputs.p_eq_of_agreeAt hP, Inputs.q_eq_of_agreeAt hQ]

/-- R24: inputs that agree on every port an operation reads give it the same result. -/
theorem resultOf_eq_of_agreeAt_reads {i : Instr} (h : ∀ p, i.reads p = true → x.AgreeAt y p) :
    resultOf i y = resultOf i x := by
  cases i with
  | decU | decI | decS | decB | decJ =>
    have hw : y.wordIn = x.wordIn := h .wordIn rfl
    simp only [resultOf, hw]
  | encU | encI | encS | encB | encJ =>
    have hv : y.immIn = x.immIn := h .immIn rfl
    simp only [resultOf, hv]
  | riscv32 | riscv64 | hi20 | lo12I | lo12S =>
    simp only [resultOf, Inputs.xAbs_eq_of_agreeAt (h .S rfl) (h .A rfl)]
  | branch | jal | pcrelHi20 | pcrelLo12I | pcrelLo12S =>
    simp only [resultOf, Inputs.xRel_eq_of_agreeAt (h .S rfl) (h .A rfl) (h .P rfl)]
  | call | callPlt => exact callPair_eq_of_agreeAt (h .S rfl) (h .A rfl) (h .P rfl) (h .Q rfl)

end AgreeAt

theorem sameOutputs_of_resultOf_eq {i : Instr} {s : State} {ins : Inputs s.build.addrW}
    (h : resultOf i ins = resultOf i s.ins) : SameOutputs i s ins :=
  ⟨(resultOf i s.ins).outputs, exec_eq_next i s, h ▸ exec_eq_next i { s with ins := ins }⟩

theorem sameOutputs_of_agreeAt_reads {i : Instr} {s : State} {ins : Inputs s.build.addrW}
    (h : ∀ p, i.reads p = true → s.ins.AgreeAt ins p) : SameOutputs i s ins :=
  sameOutputs_of_resultOf_eq (resultOf_eq_of_agreeAt_reads h)

/-- Settles O45: in each family the ports named are all the ports read, so agreeing on them fixes the outputs (R24). -/
theorem unreadInputsAreDontCares : Obligations.UnreadInputsAreDontCares := by
  refine ⟨fun f s ins hword => ?_, fun f s ins himm => ?_, fun s ins i hi hS hA => ?_,
    fun s ins i hi hS hA hP => ?_, fun s ins i hi hS hA hP hQ => ?_⟩ <;>
    refine sameOutputs_of_agreeAt_reads fun p hp => ?_
  · obtain rfl := (f.decoder_reads_iff p).mp hp
    exact hword
  · obtain rfl := (f.encoder_reads_iff p).mp hp
    exact himm
  · obtain rfl | rfl := (Instr.absolute_reads_iff hi p).mp hp
    exacts [hS, hA]
  · obtain rfl | rfl | rfl := (Instr.relative_reads_iff hi p).mp hp
    exacts [hS, hA, hP]
  · obtain rfl | rfl | rfl | rfl := (Instr.call_reads_iff hi p).mp hp
    exacts [hS, hA, hP, hQ]

end Machine
end Sys2Proof
end

section
/-! PROOFS. A second evaluation finds the inputs the first one left in place (R44). -/

namespace Sys2Proof.Machine

/-- A state whose outputs are already EVAL of its inputs is a fixed point of the step. -/
theorem step_eq_next_self_of_settled {t : State} (settled : t.settled) : step t = .next t := by
  calc step t = .next { t with outs := EVAL t.build t.ins } := stepDrivesEvalOfPresentInputs t
    _ = .next { t with outs := t.outs } := by rw [← settled]

/-- Settles O3: the first step leaves a settled state, and a settled state is a fixed point of the step (R44). -/
theorem evaluationIsIdempotent : Obligations.EvaluationIsIdempotent := by
  intro s
  have settled : State.settled { s with outs := EVAL s.build s.ins } := rfl
  exact ⟨_, stepDrivesEvalOfPresentInputs s, step_eq_next_self_of_settled settled⟩

end Sys2Proof.Machine
end

section
/-! PROOFS. The codes of the 22 operations and the decoder of `op`: the table's rows are exactly the codes that R73 does not
reserve, and each row is the code of its own operation (R70 to R74). -/

namespace Sys2Proof

/-- Settles O10: R71 and R72's field layouts, evaluated for each family. -/
theorem operationCodesAsListed : Obligations.OperationCodesAsListed := ⟨rfl, rfl, rfl, rfl⟩

/-- Settles O12: the table search, run on the nine written codes (R71 to R73). -/
theorem writtenOutCodesDecode : Obligations.WrittenOutCodesDecode := by
  unfold Obligations.WrittenOutCodesDecode
  decide

/-! ### The rows of the table -/

/-- The model's family of laws, gathered over all operations. -/
theorem encodes (i : Instr) : Laws.Encodes.Statement i := by
  cases i <;> exact ⟨rfl, rfl⟩

@[simp] theorem decodeOp_encode (i : Instr) : decodeOp (encode i) = some i := (encodes i).1

@[simp] theorem reserved_encode (i : Instr) : OpCode.reserved (encode i) = false := (encodes i).2

theorem opTable_mask_eq : ∀ r ∈ opTable, r.mask = BitVec.allOnes 8 := by decide

theorem opTable_value_eq_encode : ∀ r ∈ opTable, r.value = encode r.instr := by decide

theorem OpRow.matches_iff {r : OpRow} (hr : r ∈ opTable) (op : OpCode) : r.matches op = true ↔ op = r.value := by
  rw [OpRow.matches, opTable_mask_eq r hr, BitVec.and_allOnes, beq_iff_eq]

/-! ### The decoder -/

theorem decodeOp_eq_some_iff (op : OpCode) (i : Instr) : decodeOp op = some i ↔ op = encode i := by
  constructor
  · intro h
    obtain ⟨r, hfind, rfl⟩ := Option.map_eq_some_iff.mp h
    have hr : r ∈ opTable := List.mem_of_find?_eq_some hfind
    calc op = r.value := (OpRow.matches_iff hr op).mp (List.find?_some (p := (OpRow.matches · op)) hfind)
      _ = encode r.instr := opTable_value_eq_encode r hr
  · rintro rfl
    exact decodeOp_encode i

theorem decodeOp_eq_none_iff (op : OpCode) : decodeOp op = none ↔ op ∉ opTable.map OpRow.value := by
  have hrow (r : OpRow) (hr : r ∈ opTable) : ¬ r.matches op = true ↔ ¬ r.value = op := by
    rw [OpRow.matches_iff hr, eq_comm]
  simp only [decodeOp, Option.map_eq_none_iff, List.find?_eq_none, List.mem_map, not_exists, not_and]
  exact forall₂_congr hrow

/-! ### The reserved codes -/

theorem op_eq_append_calculator_fields (op : OpCode) : op = op.extractLsb 7 7 ++ op.extractLsb 6 0 :=
  (BitVec.extractLsb'_append_extractLsb' (w := 1) (len := 7)).symm

theorem op_eq_append_codec_fields (op : OpCode) :
    op = op.extractLsb 7 7 ++ op.extractLsb 6 4 ++ op.extractLsb 3 3 ++ op.extractLsb 2 0 := by
  simp only [BitVec.extractLsb, BitVec.extractLsb'_append_extractLsb'_eq_extractLsb', BitVec.extractLsb'_eq_self]

theorem Format.exists_code_eq : ∀ c : BitVec 3, c ∉ [5#3, 6#3, 7#3] → ∃ f ∈ [Format.u, .i, .s, .b, .j], c = f.code := by
  decide

theorem codecOp_mem_opTable (direction : BitVec 1) (f : Format) : codecOp direction f ∈ opTable.map OpRow.value := by
  obtain rfl | rfl := BitVec.eq_zero_or_eq_one direction <;> cases f <;> decide

theorem calculatorOp_mem_opTable {t : BitVec 7} (ht : t.toNat ∈ typeCodes) :
    calculatorOp t ∈ opTable.map OpRow.value := by
  have listed : ∀ n ∈ typeCodes, calculatorOp (BitVec.ofNat 7 n) ∈ opTable.map OpRow.value := by decide
  simpa only [BitVec.ofNat_toNat, BitVec.setWidth_eq] using listed _ ht

theorem mem_opTable_of_not_reserved {op : OpCode} (h : OpCode.reserved op = false) :
    op ∈ opTable.map OpRow.value := by
  unfold OpCode.reserved at h
  split at h
  case isTrue hcodec =>
    obtain ⟨hzero, hformat⟩ : op.extractLsb 6 4 = 0#3 ∧ op.extractLsb 2 0 ∉ [5#3, 6#3, 7#3] := by
      simpa only [Bool.or_eq_false_iff, bne_eq_false_iff_eq, decide_eq_false_iff_not] using h
    obtain ⟨f, -, hf⟩ := Format.exists_code_eq _ hformat
    have hop : op = codecOp (op.extractLsb 3 3) f := by
      have fields := op_eq_append_codec_fields op
      rwa [hcodec, hzero, hf] at fields
    exact hop ▸ codecOp_mem_opTable _ f
  case isFalse hcalculator =>
    have ht : (op.extractLsb 6 0).toNat ∈ typeCodes := by
      simpa only [decide_eq_false_iff_not, not_not] using h
    have hop : op = calculatorOp (op.extractLsb 6 0) := by
      have fields := op_eq_append_calculator_fields op
      rwa [(BitVec.eq_zero_or_eq_one _).resolve_left hcalculator] at fields
    exact hop ▸ calculatorOp_mem_opTable ht

theorem reserved_eq_false_iff (op : OpCode) : OpCode.reserved op = false ↔ op ∈ opTable.map OpRow.value := by
  refine ⟨mem_opTable_of_not_reserved, fun h => ?_⟩
  obtain ⟨r, hr, rfl⟩ := List.mem_map.mp h
  rw [opTable_value_eq_encode r hr]
  exact reserved_encode r.instr

theorem reserved_iff_decodeOp_eq_none (op : OpCode) : OpCode.reserved op = true ↔ decodeOp op = none := by
  rw [decodeOp_eq_none_iff, ← reserved_eq_false_iff, Bool.not_eq_false]

/-- The numbers of the codes that are not reserved are the table's 22 values, in some order. -/
theorem not_reserved_numbers_perm :
    ((List.range 256).filter fun n => !OpCode.reserved (BitVec.ofNat 8 n)).Perm
      (opTable.map fun r => r.value.toNat) := by
  refine (List.perm_ext_iff_of_nodup (List.nodup_range.filter _) (by decide)).mpr fun n => ?_
  simp only [List.mem_filter, List.mem_range, Bool.not_eq_true', reserved_eq_false_iff, List.mem_map]
  constructor
  · rintro ⟨hn, r, hr, hvalue⟩
    exact ⟨r, hr, by rw [hvalue, BitVec.toNat_ofNat, Nat.mod_eq_of_lt hn]⟩
  · rintro ⟨r, hr, rfl⟩
    exact ⟨r.value.isLt, r, hr, by simp⟩

/-- R73: 256 - 22 codes are reserved. -/
theorem length_reserved :
    ((List.range 256).filter fun n => OpCode.reserved (BitVec.ofNat 8 n)).length = 234 := by
  have total := List.length_eq_length_filter_add (l := List.range 256) fun n => OpCode.reserved (BitVec.ofNat 8 n)
  have listed := not_reserved_numbers_perm.length_eq
  have rows : (opTable.map fun r => r.value.toNat).length = 22 := rfl
  rw [List.length_range] at total
  omega

/-- Settles O11: a code is reserved unless a row lists it, the row that matches a code is its operation's (R74), and the 22
rows' codes are distinct (R73). -/
theorem opDecodingIsTotalAndUnambiguous : Obligations.OpDecodingIsTotalAndUnambiguous :=
  ⟨reserved_iff_decodeOp_eq_none, decodeOp_eq_some_iff, length_reserved⟩

end Sys2Proof
end

section
/-! PROOFS. The operation that a step runs is the one `op` selects, and an evaluation written with the operands its operation
reads puts them on the ports that operation reads (R70, R75, R24). -/

namespace Sys2Proof.Machine

theorem step_eq_exec_of_decodeOp {s : State} {i : Instr} (h : decodeOp s.ins.op = some i) : step s = exec i s := by
  unfold step
  rw [h]

theorem decodeOp_of_decodeTableWord {nbits w : Nat} {i : Instr} (h : decodeTableWord nbits w = some i) :
    decodeOp (BitVec.ofNat 8 w) = some i :=
  (Option.ite_none_right_eq_some.mp h).2

/-- Settles O5: a step dispatches on `op`, and a number the table decodes is below 256, so it is the op driven (R33, R70). -/
theorem stepRunsTheSelectedOperation : Obligations.StepRunsTheSelectedOperation :=
  ⟨fun _ _ h => step_eq_exec_of_decodeOp h,
    fun _ _ _ _ h => step_eq_exec_of_decodeOp (decodeOp_of_decodeTableWord h)⟩

/-! ### Written evaluations -/

/-- An operand that is read is written, so what the host drives on its port plays no part. -/
theorem operandValue_eq_of_read {n : Nat} {read : Bool} {lo hi : Int} {operand : Option Int}
    (ok : operandOk read lo hi operand = true) (hread : read = true) (driven driven' : BitVec n) :
    operandValue driven' operand = operandValue driven operand := by
  cases operand with
  | none => simp [operandOk, hread] at ok
  | some v => rfl

/-- Two evaluations of one well-formed form agree on every port that the operation reads (R75). -/
theorem evaluationInputs_agreeAt_reads {n : Nat} {b : Build} {e : Evaluation} (wf : e.wellFormed b = true)
    (driven driven' : Inputs n) (p : Port) (hread : e.instr.reads p = true) :
    (evaluationInputs e driven).AgreeAt (evaluationInputs e driven') p := by
  simp only [Evaluation.wellFormed, Bool.and_eq_true] at wf
  obtain ⟨⟨⟨⟨⟨hword, himm⟩, hS⟩, hA⟩, hP⟩, hQ⟩ := wf
  cases p with
  | wordIn => exact operandValue_eq_of_read hword hread _ _
  | immIn => exact operandValue_eq_of_read himm hread _ _
  | S => exact operandValue_eq_of_read hS hread _ _
  | A => exact operandValue_eq_of_read hA hread _ _
  | P => exact operandValue_eq_of_read hP hread _ _
  | Q => exact operandValue_eq_of_read hQ hread _ _

/-- Settles O46: `op` carries the named operation's code, and the ports it reads carry the written operands whatever is driven
on the others (R75, R24). -/
theorem writtenEvaluationFixesTheOutputs : Obligations.WrittenEvaluationFixesTheOutputs := by
  intro s e driven wf
  obtain ⟨o, runs, runsDriven⟩ :
      SameOutputs e.instr { s with ins := evaluationInputs e s.ins } (evaluationInputs e driven) :=
    sameOutputs_of_agreeAt_reads (evaluationInputs_agreeAt_reads wf s.ins driven)
  have selected : step { s with ins := evaluationInputs e s.ins } =
      exec e.instr { s with ins := evaluationInputs e s.ins } :=
    step_eq_exec_of_decodeOp (decodeOp_encode e.instr)
  exact ⟨o, selected.trans runs, runsDriven⟩

end Sys2Proof.Machine
end

section
/-! PROOFS. The legal value set of a format (R66) as the multiples of a power of two that fit a signed field, and what it says
of an immediate's bits. -/

namespace Sys2Proof.Machine

/-- The bits of a format's immediate before sign extension (R102 to R106). -/
def immediateWidth : Format → Nat
  | .u => 32
  | .i | .s => 12
  | .b => 13
  | .j => 21

/-- The constant zeros at the low end of a format's immediate (R102, R105, R106). -/
def immediateZeros : Format → Nat
  | .u => 12
  | .i | .s => 0
  | .b | .j => 1

theorem immediateWidth_pos (f : Format) : 0 < immediateWidth f := by cases f <;> decide

theorem immediateWidth_le (f : Format) : immediateWidth f ≤ 32 := by cases f <;> decide

theorem immediateZeros_le (f : Format) : immediateZeros f ≤ 32 := by cases f <;> decide

/-! ### Legal integers -/

theorem legalImmediate_u_iff (v : Int) :
    legalImmediate .u v = true ↔ v % 4096 = 0 ∧ -2147483648 ≤ v ∧ v ≤ 2147479552 := by
  simp [legalImmediate, and_comm]

theorem legalImmediate_i_iff (v : Int) : legalImmediate .i v = true ↔ -2048 ≤ v ∧ v ≤ 2047 := by
  simp [legalImmediate]

theorem legalImmediate_s_iff (v : Int) : legalImmediate .s v = true ↔ -2048 ≤ v ∧ v ≤ 2047 :=
  legalImmediate_i_iff v

theorem legalImmediate_b_iff (v : Int) :
    legalImmediate .b v = true ↔ v % 2 = 0 ∧ -4096 ≤ v ∧ v ≤ 4094 := by
  simp [legalImmediate, and_comm]

theorem legalImmediate_j_iff (v : Int) :
    legalImmediate .j v = true ↔ v % 2 = 0 ∧ -1048576 ≤ v ∧ v ≤ 1048574 := by
  simp [legalImmediate, and_comm]

/-- R66: the legal values are the multiples of `2 ^ immediateZeros` that fit `immediateWidth` signed bits. -/
theorem legalImmediate_iff (f : Format) (v : Int) :
    legalImmediate f v = true ↔
      (-2 ^ (immediateWidth f - 1) ≤ v ∧ v < 2 ^ (immediateWidth f - 1)) ∧ 2 ^ immediateZeros f ∣ v := by
  cases f with
  | u => simp only [legalImmediate_u_iff, immediateWidth, immediateZeros]; omega
  | i => simp only [legalImmediate_i_iff, immediateWidth, immediateZeros]; omega
  | s => simp only [legalImmediate_s_iff, immediateWidth, immediateZeros]; omega
  | b => simp only [legalImmediate_b_iff, immediateWidth, immediateZeros]; omega
  | j => simp only [legalImmediate_j_iff, immediateWidth, immediateZeros]; omega

/-- A legal value is an Immediate: 32 signed bits hold it. -/
theorem toInt_ofInt_of_legal {f : Format} {v : Int} (legal : legalImmediate f v = true) :
    (BitVec.ofInt 32 v).toInt = v := by
  obtain ⟨⟨hlow, hhigh⟩, -⟩ := (legalImmediate_iff f v).mp legal
  have bound : (2 : Int) ^ (immediateWidth f - 1) ≤ 2 ^ 31 := by
    have := immediateWidth_le f
    exact pow_le_pow_right₀ (by decide) (by omega)
  exact BitVec.toInt_ofInt_eq_self (by decide) (by omega) (by omega)

/-! ### Legal words -/

theorem setWidth_eq_ofInt_toInt {k : Nat} (hk : k ≤ 32) (v : Word) : v.setWidth k = BitVec.ofInt k v.toInt :=
  (BitVec.signExtend_eq_setWidth_of_le v hk).symm

theorem two_pow_dvd_toInt_iff {k : Nat} (hk : k ≤ 32) (v : Word) : (2 : Int) ^ k ∣ v.toInt ↔ v.setWidth k = 0#k := by
  rw [setWidth_eq_ofInt_toInt hk, ← BitVec.toInt_inj, BitVec.toInt_ofInt, BitVec.toInt_zero]
  exact_mod_cast Int.dvd_iff_bmod_eq_zero

/-- The bits of a legal word above its field repeat the field's sign. -/
theorem signExtend_setWidth_of_legal {f : Format} {v : Word} (legal : legalImmediate f v.toInt = true) :
    (v.setWidth (immediateWidth f)).signExtend 32 = v := by
  obtain ⟨⟨hlow, hhigh⟩, -⟩ := (legalImmediate_iff f _).mp legal
  apply BitVec.eq_of_toInt_eq
  calc ((v.setWidth (immediateWidth f)).signExtend 32).toInt
      = (v.setWidth (immediateWidth f)).toInt := BitVec.toInt_signExtend_of_le (immediateWidth_le f)
    _ = (BitVec.ofInt (immediateWidth f) v.toInt).toInt := by rw [setWidth_eq_ofInt_toInt (immediateWidth_le f)]
    _ = v.toInt := BitVec.toInt_ofInt_eq_self (immediateWidth_pos f) hlow hhigh

theorem getLsbD_eq_sign_of_legal {f : Format} {v : Word} (legal : legalImmediate f v.toInt = true) {i : Nat}
    (hi : immediateWidth f ≤ i) (hi' : i < 32) : v.getLsbD i = v.getLsbD (immediateWidth f - 1) := by
  have hpos := immediateWidth_pos f
  calc v.getLsbD i
      = ((v.setWidth (immediateWidth f)).signExtend 32).getLsbD i := by rw [signExtend_setWidth_of_legal legal]
    _ = v.getLsbD (immediateWidth f - 1) := by
      simp only [BitVec.getLsbD_signExtend, BitVec.msb_eq_getLsbD_last, BitVec.getLsbD_setWidth, hi', if_neg hi.not_gt,
        decide_true, Bool.true_and, Nat.sub_lt hpos one_pos]

theorem getLsbD_eq_false_of_legal {f : Format} {v : Word} (legal : legalImmediate f v.toInt = true) {i : Nat}
    (hi : i < immediateZeros f) : v.getLsbD i = false := by
  have zeros := (two_pow_dvd_toInt_iff (immediateZeros_le f) v).mp ((legalImmediate_iff f _).mp legal).2
  simpa [hi] using congrArg (fun x => x.getLsbD i) zeros

/-- A word that is a sign-extended field with the format's zeros at its low end is legal. -/
theorem legalImmediate_signExtend {f : Format} {x : BitVec (immediateWidth f)} (zeros : 2 ^ immediateZeros f ∣ x.toInt) :
    legalImmediate f (x.signExtend 32).toInt = true := by
  rw [BitVec.toInt_signExtend_of_le (immediateWidth_le f), legalImmediate_iff]
  exact ⟨⟨BitVec.le_toInt x, BitVec.toInt_lt⟩, zeros⟩

/-- A sign-extended legal value is still legal, since its integer is the same. -/
theorem legalImmediate_signExtend_64 {f : Format} {v : Word} (legal : legalImmediate f v.toInt = true) :
    legalImmediate f (v.signExtend 64).toInt = true := by
  rwa [BitVec.toInt_signExtend_of_le (by decide)]

end Sys2Proof.Machine
end

section
/-! PROOFS. Reading and packing an immediate are inverse to each other on legal values and on field bits (R108, R116, R117). -/

namespace Sys2Proof.Machine

/-- R108: what a word carries in a format is legal for it. -/
theorem legalImmediate_readImmediate (f : Format) (w : Word) : legalImmediate f (readImmediate f w).toInt = true := by
  have shifted {n : Nat} (k : Nat) (x : BitVec n) : (2 : Int) ^ k ∣ (x ++ 0#k).toInt :=
    Dvd.intro _ BitVec.toInt_append_zero.symm
  cases f with
  | u =>
    rw [← BitVec.signExtend_eq (readImmediate .u w)]
    exact legalImmediate_signExtend (f := .u) (shifted 12 _)
  | i => exact legalImmediate_signExtend (f := .i) (one_dvd _)
  | s => exact legalImmediate_signExtend (f := .s) (one_dvd _)
  | b => exact legalImmediate_signExtend (f := .b) (shifted 1 _)
  | j => exact legalImmediate_signExtend (f := .j) (shifted 1 _)

/-- Packing and reading back keeps the field's bits, clears the format's zeros and repeats the field's sign. -/
theorem getLsbD_readImmediate_packImmediate (f : Format) (v : Word) {i : Nat} (hi : i < 32) :
    (readImmediate f (packImmediate f v)).getLsbD i =
      if i < immediateZeros f then false
      else if i < immediateWidth f then v.getLsbD i
      else v.getLsbD (immediateWidth f - 1) := by
  cases f <;>
  · simp only [readImmediate, packImmediate, immediateWidth, immediateZeros, BitVec.getLsbD_signExtend,
      BitVec.getLsbD_append, BitVec.getLsbD_extractLsb, BitVec.msb_eq_getLsbD_last]
    interval_cases i <;> simp

/-- R116 (a): a legal immediate has those zeros and that sign already. -/
theorem readImmediate_packImmediate {f : Format} {v : Word} (legal : legalImmediate f v.toInt = true) :
    readImmediate f (packImmediate f v) = v := by
  apply BitVec.eq_of_getLsbD_eq
  intro i hi
  rw [getLsbD_readImmediate_packImmediate f v hi]
  split_ifs with zeros field
  · exact (getLsbD_eq_false_of_legal legal zeros).symm
  · rfl
  · exact (getLsbD_eq_sign_of_legal legal (not_lt.mp field) hi).symm

theorem packImmediate_and_not_fieldMask (f : Format) (v : Word) : packImmediate f v &&& ~~~fieldMask f = 0#32 := by
  rw [← packImmediate_masked, BitVec.and_assoc, BitVec.and_not_self]
  exact BitVec.and_zero

/-- R101: two words carry the same immediate exactly when they agree on the field mask. -/
theorem readImmediate_eq_iff (f : Format) (w w' : Word) :
    readImmediate f w = readImmediate f w' ↔ w &&& fieldMask f = w' &&& fieldMask f := by
  constructor
  · intro h
    rw [← packImmediate_readImmediate, h, packImmediate_readImmediate]
  · intro h
    rw [← readImmediate_masked, h, readImmediate_masked]

/-! ### The host's merge (R117) -/

theorem mergeField_and_not_fieldMask (f : Format) (w v : Word) :
    mergeField f w (packImmediate f v) &&& ~~~fieldMask f = w &&& ~~~fieldMask f := by
  rw [mergeField, BitVec.and_or_distrib_right, packImmediate_and_not_fieldMask, BitVec.and_assoc, BitVec.and_self]
  exact BitVec.or_zero

theorem mergeField_and_fieldMask (f : Format) (w v : Word) :
    mergeField f w (packImmediate f v) &&& fieldMask f = packImmediate f v := by
  rw [mergeField, BitVec.and_or_distrib_right, packImmediate_masked, BitVec.and_assoc, BitVec.not_and_self]
  exact (congrArg (· ||| packImmediate f v) BitVec.and_zero).trans BitVec.zero_or

/-- R117: the merged word carries the immediate, since reading looks at the field bits only. -/
theorem readImmediate_mergeField {f : Format} {v : Word} (legal : legalImmediate f v.toInt = true) (w : Word) :
    readImmediate f (mergeField f w (packImmediate f v)) = v := by
  rw [← readImmediate_masked, mergeField_and_fieldMask, readImmediate_packImmediate legal]

/-! ### What the codec's operations drive -/

/-- Sign extension in two steps is sign extension in one: both keep the integer value. -/
theorem signExtend_signExtend_of_le {n m k : Nat} (h : n ≤ m) (x : BitVec n) :
    (x.signExtend m).signExtend k = x.signExtend k :=
  congrArg (BitVec.ofInt k) (BitVec.toInt_signExtend_of_le h)

@[simp] theorem low_signExtend (v r : Word) (e : BitVec 2) :
    Outputs.low { res0 := v.signExtend 64, res1 := r, err := e } = v := by
  rw [Outputs.low, ← BitVec.signExtend_eq_setWidth_of_le _ (by decide), signExtend_signExtend_of_le (by decide),
    BitVec.signExtend_eq]

@[simp] theorem low_setWidth (v r : Word) (e : BitVec 2) :
    Outputs.low { res0 := v.setWidth 64, res1 := r, err := e } = v := by
  rw [Outputs.low, BitVec.setWidth_setWidth_of_le v (by decide), BitVec.setWidth_eq]

theorem exec_decoder_eq_next (f : Format) (s : State) :
    exec f.decoder s = .next { s with outs :=
      { res0 := (readImmediate f s.ins.wordIn).signExtend 64, res1 := 0, err := 0 } } :=
  exec_decoder f s

theorem exec_decoder_of_readImmediate {f : Format} {s : State} {v : Word} (read : readImmediate f s.ins.wordIn = v) :
    exec f.decoder s = .next { s with outs := { res0 := v.signExtend 64, res1 := 0, err := 0 } } :=
  read ▸ exec_decoder_eq_next f s

theorem exec_encoder_of_packImmediate {f : Format} {s : State} {w : Word}
    (legal : legalImmediate f s.ins.immIn.toInt = true) (pack : packImmediate f s.ins.immIn = w) :
    exec f.encoder s = .next { s with outs := { res0 := w.setWidth 64, res1 := 0, err := 0 } } := by
  rw [exec_encoder, encodeImmediate, if_pos legal, conclude_eq_next, Result.outputs_word, pack]

theorem exec_encoder_of_legal {f : Format} {s : State} (legal : legalImmediate f s.ins.immIn.toInt = true) :
    exec f.encoder s = .next { s with outs :=
      { res0 := (packImmediate f s.ins.immIn).setWidth 64, res1 := 0, err := 0 } } :=
  exec_encoder_of_packImmediate legal rfl

theorem exec_encoder_of_not_legal {f : Format} {s : State} (illegal : ¬ legalImmediate f s.ins.immIn.toInt = true) :
    exec f.encoder s = .next { s with outs := { res0 := 0, res1 := 0, err := 1 } } := by
  rw [exec_encoder, encodeImmediate, if_neg illegal, conclude_eq_next, Result.outputs_err, ErrorCause.code]

end Sys2Proof.Machine
end

section
/-! PROOFS. The format's immediate goes round both ways through the block, and survives the host's merge (R116, R117). -/

namespace Sys2Proof.Machine

/-- Settles O27: reading and packing are inverse to each other on legal values, and what is read is legal (R116). -/
theorem everyFormatRoundTrips : Obligations.EveryFormatRoundTrips := by
  refine ⟨fun f s v legal => ?_, fun f s => ?_⟩
  · refine ⟨_, exec_encoder_of_legal (s := s.driveImm v) legal, rfl, exec_decoder_of_readImmediate ?_⟩
    rw [State.driveWord_ins, low_setWidth]
    exact readImmediate_packImmediate legal
  · refine ⟨_, exec_decoder_eq_next f s, ?_⟩
    rw [low_signExtend]
    exact exec_encoder_of_packImmediate (legalImmediate_readImmediate f s.ins.wordIn)
      (packImmediate_readImmediate f s.ins.wordIn)

/-- Settles O28: the field bits of the merged word are the encode's, its other bits are the word's (R117). -/
theorem mergedWordDecodesToTheImmediate : Obligations.MergedWordDecodesToTheImmediate := by
  intro f s v w legal
  refine ⟨_, exec_encoder_of_legal (s := s.driveImm v) legal, ?_⟩
  rw [low_setWidth]
  exact ⟨mergeField_and_not_fieldMask f w v, exec_decoder_of_readImmediate (readImmediate_mergeField legal w)⟩

end Sys2Proof.Machine
end

section
/-! PROOFS. What each decode operation drives (R102 to R108). -/

namespace Sys2Proof.Machine

/-! ### The decodes as the rules write them -/

/-- Settles O13: DEC_U's immediate has 32 bits before sign extension (R102). -/
theorem decUGivesTheTopTwentyBits : Obligations.DecUGivesTheTopTwentyBits := fun s => exec_decoder_eq_next .u s

/-- A decode drives the field `x` sign-extended to 64 bits at once, though it reads it sign-extended to 32 (R100). -/
theorem exec_decoder_of_field {f : Format} {s : State} {n : Nat} (hn : n ≤ 32) (x : BitVec n)
    (read : readImmediate f s.ins.wordIn = x.signExtend 32) :
    exec f.decoder s = .next { s with outs := { res0 := x.signExtend 64, res1 := 0, err := 0 } } := by
  rw [exec_decoder_of_readImmediate read, signExtend_signExtend_of_le hn]

/-- Settles O14: the field has 12 bits (R103). -/
theorem decIGivesTheTopTwelveBits : Obligations.DecIGivesTheTopTwelveBits :=
  fun _ => exec_decoder_of_field (f := .i) (by decide) _ rfl

/-- Settles O15: the joined field has 12 bits (R104). -/
theorem decSJoinsTheTwoFields : Obligations.DecSJoinsTheTwoFields :=
  fun _ => exec_decoder_of_field (f := .s) (by decide) _ rfl

/-- Settles O16: the reassembled field has 13 bits (R105). -/
theorem decBReassemblesThirteenBits : Obligations.DecBReassemblesThirteenBits :=
  fun _ => exec_decoder_of_field (f := .b) (by decide) _ rfl

/-- Settles O17: the reassembled field has 21 bits (R106). -/
theorem decJReassemblesTwentyOneBits : Obligations.DecJReassemblesTwentyOneBits :=
  fun _ => exec_decoder_of_field (f := .j) (by decide) _ rfl

/-! ### Shift-and-mask forms (R107) -/

/-- R107's table. -/
def shiftAndMask (f : Format) (w : Word) : Word :=
  match f with
  | .u => w &&& 0xFFFFF000
  | .i => w.sshiftRight 20
  | .s => (w.sshiftRight 20 &&& ~~~0x1F) ||| (w >>> (7 : Nat) &&& 0x1F)
  | .b => (w.sshiftRight 19 &&& ~~~0xFFF) ||| (w >>> (20 : Nat) &&& 0x7E0) ||| (w <<< (4 : Nat) &&& 0x800) |||
      (w >>> (7 : Nat) &&& 0x1E)
  | .j => (w.sshiftRight 11 &&& ~~~0xFFFFF) ||| (w &&& 0xFF000) ||| (w >>> (9 : Nat) &&& 0x800) |||
      (w >>> (20 : Nat) &&& 0x7FE)

theorem readImmediate_eq_shiftAndMask (f : Format) (w : Word) : readImmediate f w = shiftAndMask f w := by
  apply BitVec.eq_of_getLsbD_eq
  intro i hi
  cases f <;>
  · simp only [readImmediate, shiftAndMask, BitVec.getLsbD_signExtend, BitVec.getLsbD_append, BitVec.getLsbD_extractLsb,
      BitVec.msb_eq_getLsbD_last, BitVec.getLsbD_or, BitVec.getLsbD_and, BitVec.getLsbD_sshiftRight,
      BitVec.getLsbD_ushiftRight, BitVec.getLsbD_shiftLeft]
    interval_cases i <;> simp

/-- Settles O18: R107's forms read the same immediates, bit by bit. -/
theorem decodesEqualShiftAndMaskForms : Obligations.DecodesEqualShiftAndMaskForms := by
  intro s
  have drives (f : Format) := exec_decoder_of_readImmediate (readImmediate_eq_shiftAndMask f s.ins.wordIn)
  exact ⟨drives .u, drives .i, drives .s, drives .b, drives .j⟩

/-! ### The field mask (R101) -/

theorem fieldMask_and_opcode (f : Format) : fieldMask f &&& 0x7F = 0 := by cases f <;> decide

theorem low_of_exec_decoder {f : Format} {s : State} {o : Outputs} (h : exec f.decoder s = .next { s with outs := o }) :
    o.low = readImmediate f s.ins.wordIn := by
  have drives : _ = o := congrArg State.outs (Host.Outcome.next.inj ((exec_decoder_eq_next f s).symm.trans h))
  rw [← drives, low_signExtend]

/-- Settles O19: a decode's outputs determine the immediate it read, and with it the field bits (R101). -/
theorem decodeReadsExactlyItsFieldMask : Obligations.DecodeReadsExactlyItsFieldMask := by
  refine ⟨fun f s w w' => ?_, fieldMask_and_opcode⟩
  rw [← readImmediate_eq_iff]
  constructor
  · intro same
    exact ⟨_, exec_decoder_eq_next f _, exec_decoder_of_readImmediate same.symm⟩
  · rintro ⟨o, decodes, decodes'⟩
    calc readImmediate f w = o.low := (low_of_exec_decoder (s := s.driveWord w) decodes).symm
      _ = readImmediate f w' := low_of_exec_decoder (s := s.driveWord w') decodes'

/-! ### Legal values (R108) -/

theorem exec_decoder_drives_legal (f : Format) (s : State) :
    ∃ t, exec f.decoder s = .next t ∧ legalImmediate f t.outs.res0.toInt = true :=
  ⟨_, exec_decoder_eq_next f s, legalImmediate_signExtend_64 (legalImmediate_readImmediate f _)⟩

/-- Settles O20: what a word carries is legal for the format, so the format's encode takes it (R108, R110). -/
theorem decodedImmediatesAreLegal : Obligations.DecodedImmediatesAreLegal := by
  intro s
  refine ⟨?_, ?_, ?_, ?_, ?_, fun f => ?_⟩
  · simpa only [legalImmediate_u_iff, Format.decoder] using exec_decoder_drives_legal .u s
  · simpa only [legalImmediate_i_iff, Format.decoder] using exec_decoder_drives_legal .i s
  · simpa only [legalImmediate_s_iff, Format.decoder] using exec_decoder_drives_legal .s s
  · simpa only [legalImmediate_b_iff, Format.decoder] using exec_decoder_drives_legal .b s
  · simpa only [legalImmediate_j_iff, Format.decoder] using exec_decoder_drives_legal .j s
  · obtain ⟨t, decodes, encodes⟩ := everyFormatRoundTrips.2 f s
    exact ⟨t, _, decodes, encodes, rfl⟩

end Sys2Proof.Machine
end

section
/-! PROOFS. What each encode operation drives: RangeError or the field bits (R110 to R115). -/

namespace Sys2Proof.Machine

/-- Settles O26: an encode tests the legal value set alone, and packs into the field mask (R110, R66). -/
theorem encodeStaysInItsFieldMask : Obligations.EncodeStaysInItsFieldMask := by
  intro f s
  by_cases legal : legalImmediate f s.ins.immIn.toInt = true
  · refine ⟨_, exec_encoder_of_legal legal, rfl, fun _ => ?_, fun illegal => absurd legal (by simp [illegal])⟩
    rw [low_setWidth]
    exact ⟨rfl, rfl, packImmediate_and_not_fieldMask f _⟩
  · exact ⟨_, exec_encoder_of_not_legal legal, rfl, fun h => absurd h legal, fun _ => ⟨rfl, rfl⟩⟩

/-- An encode with its range test written as any condition that refuses exactly the values that are not legal. -/
theorem exec_encoder_eq_ite {f : Format} {s : State} {bad : Prop} [Decidable bad]
    (refuses : legalImmediate f s.ins.immIn.toInt = true ↔ ¬ bad) :
    exec f.encoder s = .next { s with outs :=
      (if bad then { res0 := 0, res1 := 0, err := 1 }
      else { res0 := (packImmediate f s.ins.immIn).setWidth 64, res1 := 0, err := 0 }) } := by
  split
  case isTrue h => exact exec_encoder_of_not_legal fun legal => refuses.mp legal h
  case isFalse h => exact exec_encoder_of_legal (refuses.mpr h)

/-! ### The range tests of R111 to R115 -/

theorem extractLsb_zero_eq_setWidth (v : Word) (k : Nat) : v.extractLsb k 0 = v.setWidth (k + 1) := by
  apply BitVec.eq_of_toNat_eq
  simp

theorem legalImmediate_u_iff_low_bits (v : Word) : legalImmediate .u v.toInt = true ↔ ¬ v.extractLsb 11 0 ≠ 0#12 := by
  have fits : -2 ^ 31 ≤ v.toInt ∧ v.toInt < 2 ^ 31 := ⟨BitVec.le_toInt v, BitVec.toInt_lt⟩
  calc legalImmediate .u v.toInt = true
      ↔ 2 ^ 12 ∣ v.toInt := (legalImmediate_iff .u _).trans (and_iff_right fits)
    _ ↔ v.setWidth 12 = 0#12 := two_pow_dvd_toInt_iff (by decide) v
    _ ↔ ¬ v.extractLsb 11 0 ≠ 0#12 := by rw [not_not, extractLsb_zero_eq_setWidth]

theorem extractLsb_zero_eq_one_iff (v : Word) : v.extractLsb 0 0 = 1#1 ↔ v.toInt % 2 = 1 := by
  have one_iff_not_zero : ∀ b : BitVec 1, b = 1#1 ↔ ¬ b = 0#1 := by decide
  calc v.extractLsb 0 0 = 1#1
      ↔ ¬ v.setWidth 1 = 0#1 := by rw [one_iff_not_zero, extractLsb_zero_eq_setWidth]
    _ ↔ ¬ 2 ^ 1 ∣ v.toInt := (two_pow_dvd_toInt_iff (by decide) v).not.symm
    _ ↔ v.toInt % 2 = 1 := by omega

theorem legalImmediate_i_iff_not_outside (v : Int) : legalImmediate .i v = true ↔ ¬ (v < -2048 ∨ v > 2047) := by
  rw [legalImmediate_i_iff]; omega

theorem legalImmediate_b_iff_not_odd_or_outside (v : Word) :
    legalImmediate .b v.toInt = true ↔ ¬ (v.toInt < -4096 ∨ v.toInt > 4094 ∨ v.extractLsb 0 0 = 1#1) := by
  rw [legalImmediate_b_iff, extractLsb_zero_eq_one_iff]; omega

theorem legalImmediate_j_iff_not_odd_or_outside (v : Word) :
    legalImmediate .j v.toInt = true ↔ ¬ (v.toInt < -1048576 ∨ v.toInt > 1048574 ∨ v.extractLsb 0 0 = 1#1) := by
  rw [legalImmediate_j_iff, extractLsb_zero_eq_one_iff]; omega

/-- Settles O21: every 32-bit pattern with zero low bits is legal for U (R111). -/
theorem encUPacksOrRefusesLowBits : Obligations.EncUPacksOrRefusesLowBits :=
  fun s => exec_encoder_eq_ite (legalImmediate_u_iff_low_bits s.ins.immIn)

/-- Settles O22: the range test of R112. -/
theorem encIPacksTwelveBits : Obligations.EncIPacksTwelveBits :=
  fun s => exec_encoder_eq_ite (legalImmediate_i_iff_not_outside s.ins.immIn.toInt)

/-- Settles O23: the range test of R113, which is that of R112. -/
theorem encSSplitsTwelveBits : Obligations.EncSSplitsTwelveBits :=
  fun s => exec_encoder_eq_ite (f := .s) (legalImmediate_i_iff_not_outside s.ins.immIn.toInt)

/-- Settles O24: the range and oddness tests of R114. -/
theorem encBScattersThirteenBits : Obligations.EncBScattersThirteenBits :=
  fun s => exec_encoder_eq_ite (legalImmediate_b_iff_not_odd_or_outside s.ins.immIn)

/-- Settles O25: the range and oddness tests of R115. -/
theorem encJScattersTwentyOneBits : Obligations.EncJScattersTwentyOneBits :=
  fun s => exec_encoder_eq_ite (legalImmediate_j_iff_not_odd_or_outside s.ins.immIn)

end Sys2Proof.Machine
end

section
/-! PROOFS. Whatever a step drives is lawful beside the `op` present: a claim about the results of the operations, since the
outputs before the step play no part (R108, R110, R157, R202, R204, R206). -/

namespace Sys2Proof.Machine

/-! ### What a result drives -/

theorem Result.err_of_ok (v : Value) : (Result.ok v).outputs.err = 0 := rfl

theorem Result.zeros_of_err_ne_zero {r : Result} (h : r.outputs.err ≠ 0) : r.outputs.res0 = 0 ∧ r.outputs.res1 = 0 := by
  cases r with
  | ok v => exact absurd rfl h
  | err e => exact ⟨rfl, rfl⟩

/-! ### The relocations' values fit their fields (R157) -/

theorem legalImmediate_ofInt {f : Format} {x : Int} (legal : legalImmediate f x = true) :
    legalImmediate f (BitVec.ofInt 32 x).toInt = true := by
  rwa [toInt_ofInt_of_legal legal]

theorem legalImmediate_hiImm {x : Int} (fits : fitsHi x = true) : legalImmediate .u (hiImm x) = true := by
  simp only [fitsHi, Bool.and_eq_true, decide_eq_true_eq] at fits
  have multiple : hiImm x % 4096 = 0 := by rw [hiImm_eq_div, Int.mul_emod_left]
  rw [legalImmediate_u_iff]
  omega

theorem legalImmediate_loImm (x : Int) : legalImmediate .i (loImm x) = true := by
  rw [legalImmediate_i_iff, loImm_eq_emod]
  omega

/-- The primary result of a success is a sign-extended immediate that is legal for the format. -/
def Result.FitsFormat (f : Format) (r : Result) : Prop :=
  r.outputs.err = 0 → legalImmediate f r.outputs.res0.toInt = true

theorem fitsFormat_immediate {f : Format} {v : Word} (legal : legalImmediate f v.toInt = true) :
    Result.FitsFormat f (.ok (.immediate v)) :=
  fun _ => legalImmediate_signExtend_64 legal

theorem fitsFormat_err (f : Format) (e : ErrorCause) : Result.FitsFormat f (.err e) :=
  fun ok => absurd ok e.code_ne_zero

theorem fitsFormat_displacement (f : Format) (x : Int) : (displacement f x).FitsFormat f := by
  obtain ⟨legal, h⟩ | ⟨-, h⟩ := displacement_cases f x <;> rw [h]
  · exact fitsFormat_immediate (legalImmediate_ofInt legal)
  · exact fitsFormat_err f _

theorem fitsFormat_splitHi (x : Int) : (splitHi x).FitsFormat .u := by
  obtain ⟨fits, h⟩ | ⟨-, h⟩ := splitHi_cases x <;> rw [h]
  · exact fitsFormat_immediate (legalImmediate_ofInt (legalImmediate_hiImm fits))
  · exact fitsFormat_err .u _

theorem fitsFormat_splitLo_i (x : Int) : (splitLo x).FitsFormat .i :=
  fitsFormat_immediate (legalImmediate_ofInt (legalImmediate_loImm x))

/-- The S field takes the same integers as the I field. -/
theorem fitsFormat_splitLo_s (x : Int) : (splitLo x).FitsFormat .s :=
  fitsFormat_splitLo_i x

/-- A call that succeeds drives a hi half for the U field and a lo half for the I field. -/
theorem callPair_halves_legal {n : Nat} {ins : Inputs n} (ok : (callPair ins).outputs.err = 0) :
    legalImmediate .u (callPair ins).outputs.res0.toInt = true ∧
      legalImmediate .i (callPair ins).outputs.res1.toInt = true := by
  obtain ⟨-, h⟩ | ⟨-, fits, h⟩ | ⟨-, -, h⟩ := callPair_cases ins <;> rw [h] at ok ⊢
  · exact absurd ok (by decide)
  · exact ⟨legalImmediate_signExtend_64 (legalImmediate_ofInt (legalImmediate_hiImm fits)),
      legalImmediate_ofInt (legalImmediate_loImm _)⟩
  · exact absurd ok (by decide)

/-- R157: a relocation's result fits the format of the instruction it patches. -/
theorem fitsFormat_of_patchedFormat {n : Nat} {i : Instr} {f : Format} (patches : i.patchedFormat = some f)
    (ins : Inputs n) : (resultOf i ins).FitsFormat f := by
  cases i with
  | decU | decI | decS | decB | decJ | encU | encI | encS | encB | encJ | riscv32 | riscv64 =>
    exact absurd patches (Option.some_ne_none f).symm
  | branch | jal => cases patches; exact fitsFormat_displacement _ _
  | pcrelHi20 | hi20 => cases patches; exact fitsFormat_splitHi _
  | pcrelLo12I | lo12I => cases patches; exact fitsFormat_splitLo_i _
  | pcrelLo12S | lo12S => cases patches; exact fitsFormat_splitLo_s _
  | call | callPlt => cases patches; exact fun ok => (callPair_halves_legal ok).1

/-! ### Which operation yields what -/

/-- RangeError, or a value without a secondary result: all that the operations other than a call yield. -/
def Result.Single (r : Result) : Prop := r = .err .rangeError ∨ ∃ v : Value, r = .ok v ∧ v.res1 = 0

theorem Result.single_ite (c : Prop) [Decidable c] {v : Value} (h : v.res1 = 0) :
    Result.Single (if c then .ok v else .err .rangeError) := by
  split
  · exact .inr ⟨v, rfl, h⟩
  · exact .inl rfl

theorem resultOf_single_or_call {n : Nat} (i : Instr) (ins : Inputs n) :
    (resultOf i ins).Single ∨ ((i = .call ∨ i = .callPlt) ∧ resultOf i ins = callPair ins) := by
  cases i with
  | decU | decI | decS | decB | decJ | pcrelLo12I | pcrelLo12S | lo12I | lo12S => exact .inl (.inr ⟨_, rfl, rfl⟩)
  | encU | encI | encS | encB | encJ | riscv32 | riscv64 | branch | jal | pcrelHi20 | hi20 =>
    exact .inl (Result.single_ite _ rfl)
  | call => exact .inr ⟨.inl rfl, rfl⟩
  | callPlt => exact .inr ⟨.inr rfl, rfl⟩

/-- R206: no operation raises PreconditionError. -/
theorem resultOf_err_ne_three {n : Nat} (i : Instr) (ins : Inputs n) : (resultOf i ins).outputs.err ≠ 3 := by
  obtain (h | ⟨v, h, -⟩) | ⟨-, h⟩ := resultOf_single_or_call i ins
  · rw [h]; decide
  · rw [h, Result.err_of_ok]; decide
  · obtain ⟨-, h'⟩ | ⟨-, -, h'⟩ | ⟨-, -, h'⟩ := callPair_cases ins <;> rw [h, h']
    · decide
    · rw [Result.err_of_ok]; decide
    · decide

/-- R206, R23: AdjacencyError and a secondary result come from the call kinds alone. -/
theorem call_of_second_result_or_adjacency {n : Nat} {i : Instr} {ins : Inputs n}
    (h : (resultOf i ins).outputs.err = 2 ∨ (resultOf i ins).outputs.res1 ≠ 0) : i = .call ∨ i = .callPlt := by
  obtain (hr | ⟨v, hr, hv⟩) | ⟨hcall, -⟩ := resultOf_single_or_call i ins
  · rw [hr] at h
    exact absurd h (by decide)
  · rw [hr, Result.err_of_ok] at h
    exact absurd h (not_or.mpr ⟨by decide, not_not.mpr hv⟩)
  · exact hcall

theorem resultOf_decoder {n : Nat} (f : Format) (ins : Inputs n) :
    resultOf f.decoder ins = .ok (.immediate (readImmediate f ins.wordIn)) := by
  cases f <;> rfl

theorem resultOf_encoder {n : Nat} (f : Format) (ins : Inputs n) :
    resultOf f.encoder ins = encodeImmediate f ins.immIn := by
  cases f <;> rfl

/-- R110: zero extension puts no bit outside the field, and neither does an error. -/
theorem encodeImmediate_res0_and_not_fieldMask (f : Format) (v : Word) :
    (encodeImmediate f v).outputs.res0 &&& ~~~((fieldMask f).setWidth 64) = 0 := by
  obtain ⟨-, h⟩ | ⟨-, h⟩ := encodeImmediate_cases f v <;> rw [h]
  · rw [Result.outputs_word, ← packImmediate_masked, BitVec.setWidth_and, BitVec.and_assoc, BitVec.and_not_self]
    exact BitVec.and_zero
  · exact BitVec.zero_and

/-! ### The step -/

theorem lawful_of_reserved {s : State} (reserved : decodeOp s.ins.op = none) :
    State.Lawful { s with outs := Result.outputs (.err .preconditionError) } := by
  have no (i : Instr) : decodeOp s.ins.op ≠ some i := by simp [reserved]
  have notCall : ¬ s.selectsCall := not_or.mpr ⟨no _, no _⟩
  exact {
    errorDrivesZeros := fun _ => ⟨rfl, rfl⟩
    preconditionIffReserved := iff_of_true rfl ((reserved_iff_decodeOp_eq_none _).mpr reserved)
    adjacencyOnlyForCalls := fun h : (3 : BitVec 2) = 2 => absurd h (by decide)
    secondResultOnlyForCalls := fun h => absurd rfl h
    decodedIsLegal := fun f h => absurd h (no _)
    encodedStaysInField := fun f h => absurd h (no _)
    relocationFitsItsField := fun i f h => absurd h (no _)
    callLowHalfFits := fun h => absurd h notCall }

theorem lawful_of_selected {s : State} {i : Instr} (selected : decodeOp s.ins.op = some i) :
    State.Lawful { s with outs := (resultOf i s.ins).outputs } := by
  have eq {j : Instr} (h : decodeOp s.ins.op = some j) : i = j := Option.some.inj (selected.symm.trans h)
  have notReserved : ¬ OpCode.reserved s.ins.op = true := by
    rw [reserved_iff_decodeOp_eq_none, selected]
    exact Option.some_ne_none i
  have selectsCall (h : i = .call ∨ i = .callPlt) : s.selectsCall :=
    h.imp (selected.trans <| congrArg some ·) (selected.trans <| congrArg some ·)
  exact {
    errorDrivesZeros := Result.zeros_of_err_ne_zero
    preconditionIffReserved := iff_of_false (resultOf_err_ne_three i s.ins) notReserved
    adjacencyOnlyForCalls := fun h => selectsCall (call_of_second_result_or_adjacency (.inl h))
    secondResultOnlyForCalls := fun h => selectsCall (call_of_second_result_or_adjacency (.inr h))
    decodedIsLegal := fun f h => by
      obtain rfl := eq h
      simp only [resultOf_decoder]
      exact ⟨rfl, legalImmediate_signExtend_64 (legalImmediate_readImmediate f _)⟩
    encodedStaysInField := fun f h => by
      obtain rfl := eq h
      simp only [resultOf_encoder]
      exact encodeImmediate_res0_and_not_fieldMask f _
    relocationFitsItsField := fun j f h patches => by
      obtain rfl := eq h
      exact fitsFormat_of_patchedFormat patches s.ins
    callLowHalfFits := fun h ok => by
      obtain rfl | rfl := h.imp eq eq <;> exact (callPair_halves_legal ok).2 }

/-- Settles O51: a step concludes with PreconditionError on a reserved `op` and with the selected operation's result on any
other, and both are lawful. -/
theorem everyStepLeavesLawfulOutputs : Obligations.EveryStepLeavesLawfulOutputs := by
  intro s
  refine ⟨_, step_eq_conclude_evalResult s, ?_⟩
  unfold evalResult
  cases h : decodeOp s.ins.op with
  | none => exact lawful_of_reserved h
  | some i => exact lawful_of_selected h

end Sys2Proof.Machine
end

section
/-! PROOFS. What the relocations drive, each as its rule writes it: RangeError outside the range of S + A or S + A - P, the
value inside it (R140 to R154). -/

namespace Sys2Proof.Machine

/-! ### The halves of a split (R140, R141) -/

/-- Settles O31: what rounds into the bounds reaches from 2048 below the lower to 2047 above the upper one (R140). -/
theorem hiFitsExactlyInTheClosedRange : Obligations.HiFitsExactlyInTheClosedRange := by
  intro x
  rw [hiImm_eq_div]
  omega

theorem fitsHi_iff_not_outside (x : Int) : fitsHi x = true ↔ ¬ (x < -0x80000800 ∨ x > 0x7FFFF7FF) := by
  calc fitsHi x = true
      ↔ -2147483648 ≤ hiImm x ∧ hiImm x ≤ 2147483648 - 4096 := by simp [fitsHi]
    _ ↔ -0x80000800 ≤ x ∧ x ≤ 0x7FFFF7FF := hiFitsExactlyInTheClosedRange x
    _ ↔ ¬ (x < -0x80000800 ∨ x > 0x7FFFF7FF) := by omega

theorem hiImm_add_loImm (x : Int) : hiImm x + loImm x = x := by
  rw [hiImm_eq_div, loImm_eq_emod]
  omega

/-- Settles O32: quotient and remainder of `x + 2048` by 4096 (R141). -/
theorem splitHalvesReconstruct : Obligations.SplitHalvesReconstruct := by
  intro x
  obtain ⟨low, high⟩ := (legalImmediate_i_iff _).mp (legalImmediate_loImm x)
  have multiple : hiImm x % 4096 = 0 := by rw [hiImm_eq_div, Int.mul_emod_left]
  exact ⟨multiple, low, high, hiImm_add_loImm x⟩

/-! ### RangeError or a value -/

/-- An operation with its range test written as any condition that refuses exactly what the test does not admit. -/
theorem exec_eq_ite_of_resultOf {i : Instr} {s : State} {fits : Bool} {v : Value} {bad : Prop} [Decidable bad]
    (result : resultOf i s.ins = if fits then .ok v else .err .rangeError) (refuses : fits = true ↔ ¬ bad) :
    exec i s = .next { s with outs :=
      (if bad then { res0 := 0, res1 := 0, err := 1 } else { res0 := v.res0, res1 := v.res1, err := 0 }) } := by
  rw [exec_eq_next, result]
  by_cases h : bad
  · rw [if_pos h, if_neg fun ok => refuses.mp ok h]; rfl
  · rw [if_neg h, if_pos (refuses.mpr h)]; rfl

theorem fitsWord_32_iff_not_outside (v : Int) :
    fitsWord 32 v = true ↔ ¬ (v < -2147483648 ∨ v > 4294967295) := by
  rw [fitsWord_iff]; omega

theorem fitsWord_64_iff_not_outside (v : Int) :
    fitsWord 64 v = true ↔ ¬ (v < -9223372036854775808 ∨ v > 18446744073709551615) := by
  rw [fitsWord_iff]; omega

/-- Settles O29: the bounds of both readings of 32 bits (R142). -/
theorem riscv32GivesTheSumOrRangeError : Obligations.Riscv32GivesTheSumOrRangeError :=
  fun s => exec_eq_ite_of_resultOf (v := .word _) rfl (fitsWord_32_iff_not_outside s.ins.xAbs)

/-- Settles O30: the bounds of both readings of 64 bits (R143). -/
theorem riscv64GivesTheSumOrRangeError : Obligations.Riscv64GivesTheSumOrRangeError :=
  fun s => exec_eq_ite_of_resultOf (v := .dword _) rfl (fitsWord_64_iff_not_outside s.ins.xAbs)

theorem legalImmediate_b_iff_not_outside_or_odd (x : Int) :
    legalImmediate .b x = true ↔ ¬ (x < -4096 ∨ x > 4094 ∨ x % 2 = 1) := by
  rw [legalImmediate_b_iff]; omega

theorem legalImmediate_j_iff_not_outside_or_odd (x : Int) :
    legalImmediate .j x = true ↔ ¬ (x < -1048576 ∨ x > 1048574 ∨ x % 2 = 1) := by
  rw [legalImmediate_j_iff]; omega

/-- Settles O38: the displacement must be legal for B (R151). -/
theorem branchGivesTheDisplacementOrRangeError : Obligations.BranchGivesTheDisplacementOrRangeError :=
  fun s => exec_eq_ite_of_resultOf (v := .immediate _) rfl (legalImmediate_b_iff_not_outside_or_odd s.ins.xRel)

/-- Settles O39: the displacement must be legal for J (R152). -/
theorem jalGivesTheDisplacementOrRangeError : Obligations.JalGivesTheDisplacementOrRangeError :=
  fun s => exec_eq_ite_of_resultOf (v := .immediate _) rfl (legalImmediate_j_iff_not_outside_or_odd s.ins.xRel)

/-! ### The split kinds -/

theorem exec_of_splitHi {i : Instr} {s : State} {x : Int} {bad : Prop} [Decidable bad]
    (result : resultOf i s.ins = splitHi x) (refuses : fitsHi x = true ↔ ¬ bad) :
    exec i s = .next { s with outs :=
      (if bad then { res0 := 0, res1 := 0, err := 1 }
      else { res0 := (BitVec.ofInt 32 ((x + 0x800) / 4096 * 4096)).signExtend 64, res1 := 0, err := 0 }) } := by
  rw [exec_eq_ite_of_resultOf result refuses, hiImm_eq_div]
  rfl

/-- Settles O33: the range is the one whose rounded values fit (R144, R140). -/
theorem pcrelHi20RoundsOrRangeError : Obligations.PcrelHi20RoundsOrRangeError :=
  fun s => exec_of_splitHi rfl (fitsHi_iff_not_outside s.ins.xRel)

/-- R147: `s >= 0` and `a >= -2^31`. -/
theorem Inputs.neg_two_pow_31_le_xAbs {n : Nat} (ins : Inputs n) : -2 ^ 31 ≤ ins.xAbs := by
  have haddend : -2 ^ 31 ≤ ins.A.toInt := BitVec.le_toInt ins.A
  simp only [Inputs.xAbs, Inputs.s, Inputs.a]
  omega

/-- Settles O35: of the two bounds only the upper one can fail (R147). -/
theorem hi20RoundsOrRangeError : Obligations.Hi20RoundsOrRangeError := by
  intro s
  have lower := s.ins.neg_two_pow_31_le_xAbs
  have refuses : fitsHi s.ins.xAbs = true ↔ ¬ s.ins.xAbs > 0x7FFFF7FF := by
    rw [fitsHi_iff_not_outside]; omega
  exact exec_of_splitHi rfl refuses

theorem exec_of_splitLo {i : Instr} {s : State} {x : Int} (result : resultOf i s.ins = splitLo x) :
    exec i s = .next { s with outs := { res0 := (BitVec.ofInt 12 x).signExtend 64, res1 := 0, err := 0 } } := by
  have low : (BitVec.ofInt 32 (loImm x)).signExtend 64 = (BitVec.ofInt 12 x).signExtend 64 :=
    signExtend_signExtend_of_le (by decide) (BitVec.ofInt 12 x)
  rw [exec_eq_next, result, splitLo, Result.outputs_immediate, low]

/-- Settles O34: the I and S kinds split the same offset (R145, R146). -/
theorem pcrelLo12GivesTheLowTwelveBits : Obligations.PcrelLo12GivesTheLowTwelveBits := by
  rintro s i (rfl | rfl) <;> exact exec_of_splitLo rfl

/-- Settles O36: the I and S kinds split the same address (R148, R149). -/
theorem lo12GivesTheLowTwelveBits : Obligations.Lo12GivesTheLowTwelveBits := by
  rintro s i (rfl | rfl) <;> exact exec_of_splitLo rfl

/-! ### The call pair -/

theorem resultOf_call {n : Nat} {i : Instr} (hi : i = .call ∨ i = .callPlt) (ins : Inputs n) :
    resultOf i ins = callPair ins := by
  rcases hi with rfl | rfl <;> rfl

theorem outputs_callPair {n : Nat} (ins : Inputs n) :
    (callPair ins).outputs =
      if ins.q ≠ ins.p + 4 then { res0 := 0, res1 := 0, err := 2 }
      else if ins.xRel < -0x80000800 ∨ ins.xRel > 0x7FFFF7FF then { res0 := 0, res1 := 0, err := 1 }
      else
        { res0 := (BitVec.ofInt 32 ((ins.xRel + 0x800) / 4096 * 4096)).signExtend 64
          res1 := (BitVec.ofInt 12 ins.xRel).signExtend 32
          err := 0 } := by
  obtain ⟨apart, h⟩ | ⟨adjacent, fits, h⟩ | ⟨adjacent, outside, h⟩ := callPair_cases ins <;> rw [h]
  · rw [if_pos apart]; rfl
  · rw [if_neg (not_not.mpr adjacent), if_neg ((fitsHi_iff_not_outside _).mp fits), hiImm_eq_div]; rfl
  · rw [Bool.eq_false_iff, ne_eq, fitsHi_iff_not_outside, not_not] at outside
    rw [if_neg (not_not.mpr adjacent), if_pos outside]; rfl

/-- Settles O41: both kinds conclude with the call pair's result (R153, R154). -/
theorem callPairSplitsAfterAdjacency : Obligations.CallPairSplitsAfterAdjacency := by
  intro s i hi
  rw [exec_eq_next, resultOf_call hi, outputs_callPair]
  rfl

/-- Settles O42: no Q reaches 2^ADDR_W, so none is P + 4 (R153). -/
theorem callAtTheTopOfTheAddressesIsNeverAdjacent : Obligations.CallAtTheTopOfTheAddressesIsNeverAdjacent := by
  intro s i hi top
  have apart : (s.ins.Q.toNat : Int) ≠ (s.ins.P.toNat : Int) + 4 := by
    have := s.ins.Q.isLt
    omega
  rw [callPairSplitsAfterAdjacency s i hi, if_pos apart]

end Sys2Proof.Machine
end

section
/-! PROOFS. The integers that successful relocations drive: the halves of a split add up, and a displacement is the offset
itself (R150, R155). -/

namespace Sys2Proof.Machine

theorem outs_of_exec {i : Instr} {s t : State} {r : Result} (result : resultOf i s.ins = r) (runs : exec i s = .next t) :
    t.outs = r.outputs := by
  cases (exec_eq_next i s).symm.trans runs
  rw [result]

theorem toInt_signExtend_ofInt_of_legal {f : Format} {x : Int} (legal : legalImmediate f x = true) :
    ((BitVec.ofInt 32 x).signExtend 64).toInt = x := by
  rw [BitVec.toInt_signExtend_of_le (by decide), toInt_ofInt_of_legal legal]

theorem toInt_res0_splitHi {x : Int} (ok : (splitHi x).outputs.err = 0) :
    (splitHi x).outputs.res0.toInt = hiImm x := by
  obtain ⟨fits, h⟩ | ⟨-, h⟩ := splitHi_cases x <;> rw [h] at ok ⊢
  · exact toInt_signExtend_ofInt_of_legal (legalImmediate_hiImm fits)
  · exact absurd ok (by decide)

theorem toInt_res0_splitLo (x : Int) : (splitLo x).outputs.res0.toInt = loImm x :=
  toInt_signExtend_ofInt_of_legal (legalImmediate_loImm x)

theorem toInt_res0_displacement {f : Format} {x : Int} (ok : (displacement f x).outputs.err = 0) :
    (displacement f x).outputs.res0.toInt = x := by
  obtain ⟨legal, h⟩ | ⟨-, h⟩ := displacement_cases f x <;> rw [h] at ok ⊢
  · exact toInt_signExtend_ofInt_of_legal legal
  · exact absurd ok (by decide)

theorem toInt_halves_callPair {n : Nat} {ins : Inputs n} (ok : (callPair ins).outputs.err = 0) :
    (callPair ins).outputs.res0.toInt = hiImm ins.xRel ∧ (callPair ins).outputs.res1.toInt = loImm ins.xRel := by
  obtain ⟨-, h⟩ | ⟨-, fits, h⟩ | ⟨-, -, h⟩ := callPair_cases ins <;> rw [h] at ok ⊢
  · exact absurd ok (by decide)
  · exact ⟨toInt_signExtend_ofInt_of_legal (legalImmediate_hiImm fits), toInt_ofInt_of_legal (legalImmediate_loImm _)⟩
  · exact absurd ok (by decide)

/-- A hi operation that succeeds and a lo operation on the same `x` drive integers that add up to `x`. -/
theorem split_pair_adds_up {hi lo : Instr} {s t : State} {x : Int} (hhi : resultOf hi s.ins = splitHi x)
    (hlo : resultOf lo s.ins = splitLo x) (runs : exec hi s = .next t) (ok : t.outs.err = 0) :
    ∃ u : State, exec lo s = .next u ∧ u.outs.err = 0 ∧ t.outs.res0.toInt + u.outs.res0.toInt = x := by
  refine ⟨{ s with outs := (splitLo x).outputs }, hlo ▸ exec_eq_next lo s, rfl, ?_⟩
  rw [outs_of_exec hhi runs] at ok ⊢
  rw [toInt_res0_splitHi ok, toInt_res0_splitLo, hiImm_add_loImm]

/-- Settles O37: the hi and lo kinds of a pair split the same integer (R150). -/
theorem splitPairsAddUp : Obligations.SplitPairsAddUp := by
  constructor <;> rintro s t lo (rfl | rfl) runs ok <;> exact split_pair_adds_up rfl rfl runs ok

theorem toInt_res0_of_displacement_kind {i : Instr} (hi : i = .branch ∨ i = .jal) {s t : State}
    (runs : exec i s = .next t) (ok : t.outs.err = 0) : t.outs.res0.toInt = s.ins.xRel := by
  obtain ⟨f, result⟩ : ∃ f, resultOf i s.ins = displacement f s.ins.xRel := by
    rcases hi with rfl | rfl <;> exact ⟨_, rfl⟩
  rw [outs_of_exec result runs] at ok ⊢
  exact toInt_res0_displacement ok

/-- Settles O40: the displacement is `S + A - P` itself (R155). -/
theorem displacementSignFollowsTheTarget : Obligations.DisplacementSignFollowsTheTarget := by
  intro s t i hi runs ok
  have offset : t.outs.res0.toInt = absoluteSum s.ins - (s.ins.P.toNat : Int) :=
    toInt_res0_of_displacement_kind hi runs ok
  omega

/-- Settles O43: both halves split the offset from P (R141, R153). -/
theorem callHalvesAddUp : Obligations.CallHalvesAddUp := by
  intro s t i hi runs ok
  rw [outs_of_exec (resultOf_call hi s.ins) runs] at ok ⊢
  obtain ⟨hhi, hlo⟩ := toInt_halves_callPair ok
  rw [hhi, hlo]
  exact hiImm_add_loImm s.ins.xRel

end Sys2Proof.Machine
end

section
/-! PROOFS. The absolute kinds do not read P and Q, and the PC-relative kinds see the addresses through S + A - P and Q - P
(R156). -/

namespace Sys2Proof.Machine

section Relative

variable {n : Nat} {x y : Inputs n}

theorem resultOf_relative_eq_of_xRel_eq {i : Instr} (hi : i ∈ [Instr.pcrelHi20, .pcrelLo12I, .pcrelLo12S, .branch, .jal])
    (offset : y.xRel = x.xRel) : resultOf i y = resultOf i x := by
  simp only [List.mem_cons, List.not_mem_nil, or_false] at hi
  rcases hi with rfl | rfl | rfl | rfl | rfl <;> simp only [resultOf, offset]

theorem callPair_eq_of_xRel_eq (offset : y.xRel = x.xRel) (distance : y.q - y.p = x.q - x.p) :
    callPair y = callPair x := by
  have adjacent : y.q = y.p + Config.callPairOffset ↔ x.q = x.p + Config.callPairOffset := by omega
  simp only [callPair, offset, ne_eq, adjacent]

end Relative

/-- Settles O44: an absolute kind reads S and A alone, a PC-relative kind's result is a function of `x_rel`, a call's also of
its adjacency (R156). -/
theorem positionIndependence : Obligations.PositionIndependence := by
  refine ⟨fun s p q i hi => ?_, fun s ins i hi offset => ?_, fun s ins i hi offset distance => ?_⟩
  · refine sameOutputs_of_agreeAt_reads fun port hread => ?_
    obtain rfl | rfl := (Instr.absolute_reads_iff hi port).mp hread <;> rfl
  · exact sameOutputs_of_resultOf_eq (resultOf_relative_eq_of_xRel_eq hi offset)
  · apply sameOutputs_of_resultOf_eq
    rw [resultOf_call hi, resultOf_call hi]
    exact callPair_eq_of_xRel_eq offset distance

end Sys2Proof.Machine
end

section
/-! PROOFS. The whole path of a patch: relocate, encode, merge, and decode what was relocated (R157, R117). -/

namespace Sys2Proof.Machine

/-- The codec's round trips, with the encode's outcome: a legal immediate is encoded without error, and the merged word
decodes to it. -/
theorem encode_merge_decode {f : Format} {v : Word} (legal : legalImmediate f v.toInt = true) (t : State) (w : Word) :
    ∃ u : State, exec f.encoder (t.driveImm v) = .next u ∧ u.outs.err = 0 ∧
      mergeField f w u.outs.low &&& ~~~fieldMask f = w &&& ~~~fieldMask f ∧
      exec f.decoder (u.driveWord (mergeField f w u.outs.low)) =
        .next { u.driveWord (mergeField f w u.outs.low) with outs :=
          { res0 := v.signExtend 64, res1 := 0, err := 0 } } := by
  obtain ⟨u, encodes, keeps, decodes⟩ := mergedWordDecodesToTheImmediate f t v w legal
  obtain ⟨u', encodes', ok, -⟩ := everyFormatRoundTrips.1 f t v legal
  obtain rfl : u = u' := Host.Outcome.next.inj (encodes.symm.trans encodes')
  exact ⟨u, encodes, ok, keeps, decodes⟩

/-- A primary result that is legal for a format loses nothing in its low 32 bits. -/
theorem toInt_low_of_legal {f : Format} {o : Outputs} (legal : legalImmediate f o.res0.toInt = true) :
    o.low.toInt = o.res0.toInt := by
  rw [Outputs.low, ← BitVec.signExtend_eq_setWidth_of_le _ (by decide)]
  exact toInt_ofInt_of_legal legal

theorem signExtend_low_of_legal {f : Format} {o : Outputs} (legal : legalImmediate f o.res0.toInt = true) :
    o.low.signExtend 64 = o.res0 := by
  apply BitVec.eq_of_toInt_eq
  rw [BitVec.toInt_signExtend_of_le (by decide), toInt_low_of_legal legal]

/-- Settles O47: what a relocation drives without error is legal for the format it patches (R157), so the codec carries it
through the merge (R117). -/
theorem patchedInstructionCarriesTheRelocation : Obligations.PatchedInstructionCarriesTheRelocation := by
  refine ⟨fun s t i f w patches runs ok => ?_, fun s t i w hi runs ok => ?_⟩
  · have legal : legalImmediate f t.outs.res0.toInt = true := by
      rw [outs_of_exec rfl runs] at ok ⊢
      exact fitsFormat_of_patchedFormat patches s.ins ok
    rw [← signExtend_low_of_legal legal]
    exact encode_merge_decode ((toInt_low_of_legal legal).symm ▸ legal) t w
  · have legal : legalImmediate .i t.outs.res1.toInt = true := by
      rw [outs_of_exec (resultOf_call hi s.ins) runs] at ok ⊢
      exact (callPair_halves_legal ok).2
    exact encode_merge_decode legal t w

end Sys2Proof.Machine
end

section
/-! PROOFS. Which error an evaluation ends with, what it drives then, and which cause is reported first (R202 to R206). -/

namespace Sys2Proof.Machine

/-! ### A reserved `op` (R202) and the zeros of an error (R204) -/

theorem step_eq_next_of_reserved {s : State} (reserved : OpCode.reserved s.ins.op = true) :
    step s = .next { s with outs := { res0 := 0, res1 := 0, err := 3 } } := by
  unfold step
  rw [(reserved_iff_decodeOp_eq_none _).mp reserved]
  exact reservedOp_eq_next s

/-- R202: PreconditionError tells a reserved `op` from any other, since no operation raises it. -/
theorem evalResult_err_eq_three_iff {n : Nat} (ins : Inputs n) :
    (evalResult ins).outputs.err = 3 ↔ OpCode.reserved ins.op = true := by
  rw [reserved_iff_decodeOp_eq_none]
  unfold evalResult
  cases decodeOp ins.op with
  | none => exact iff_of_true rfl rfl
  | some i => exact iff_of_false (resultOf_err_ne_three i ins) (Option.some_ne_none i)

/-- Settles O6: the step on a reserved `op`, and the error code 3 on no other (R202). -/
theorem preconditionErrorExactlyOnReservedOp : Obligations.PreconditionErrorExactlyOnReservedOp := by
  refine ⟨fun s => step_eq_next_of_reserved, fun s listed => ⟨_, step_eq_conclude_evalResult s, fun h => ?_⟩⟩
  have reserved : OpCode.reserved s.ins.op = true := (evalResult_err_eq_three_iff s.ins).mp h
  exact absurd (listed.symm.trans reserved) Bool.false_ne_true

/-- Settles O48: every step concludes with a result, and concluding with an error drives its code and zeros (R203, R204). -/
theorem errorsDriveZeros : Obligations.ErrorsDriveZeros :=
  ⟨fun s => ⟨_, step_eq_conclude_evalResult s, Result.zeros_of_err_ne_zero⟩,
    fun s => ⟨conclude_eq_next _ s, conclude_eq_next _ s, conclude_eq_next _ s⟩⟩

/-! ### The priority of the causes (R205) -/

/-- The error code of a call pair: AdjacencyError hides RangeError. -/
theorem err_callPair {n : Nat} (ins : Inputs n) :
    (callPair ins).outputs.err =
      if ins.q ≠ ins.p + 4 then 2 else rangeCode (ins.xRel < -0x80000800 ∨ ins.xRel > 0x7FFFF7FF) := by
  rw [outputs_callPair, apply_ite Outputs.err, apply_ite Outputs.err]
  rfl

theorem evalResult_of_call_op {n : Nat} {ins : Inputs n} (hop : ins.op = 0x92 ∨ ins.op = 0x93) :
    evalResult ins = callPair ins := by
  unfold evalResult
  rcases hop with hop | hop <;> rw [hop] <;> rfl

/-- Settles O49: a reserved `op` is tested before any operand, and a call tests adjacency before the range (R205). -/
theorem errorPriority : Obligations.ErrorPriority := by
  refine fun s => ⟨_, step_eq_conclude_evalResult s, (evalResult_err_eq_three_iff s.ins).mpr,
    fun _ hop apart => ?_, fun _ hop adjacent outside => ?_⟩
  · calc (evalResult s.ins).outputs.err = (callPair s.ins).outputs.err := by rw [evalResult_of_call_op hop]
      _ = 2 := (err_callPair s.ins).trans (if_pos apart)
  · calc (evalResult s.ins).outputs.err = (callPair s.ins).outputs.err := by rw [evalResult_of_call_op hop]
      _ = rangeCode _ := (err_callPair s.ins).trans (if_neg (not_not.mpr adjacent))
      _ = 1 := if_pos outside

/-! ### The errors of each operation (R206) -/

theorem answersErr_of_exec {i : Instr} {s : State} {o : Outputs} (runs : exec i s = .next { s with outs := o }) :
    AnswersErr i s o.err :=
  ⟨_, runs, rfl⟩

/-- The outcome code of an operation that drives RangeError or a value. -/
theorem answersErr_rangeCode {i : Instr} {s : State} {bad : Prop} [Decidable bad] {r₀ : DWord} {r₁ : Word}
    (runs : exec i s = .next { s with outs :=
      (if bad then { res0 := 0, res1 := 0, err := 1 } else { res0 := r₀, res1 := r₁, err := 0 }) }) :
    AnswersErr i s (rangeCode bad) :=
  ⟨_, runs, apply_ite Outputs.err ..⟩

theorem answersErr_call {i : Instr} (hi : i = .call ∨ i = .callPlt) (s : State) :
    AnswersErr i s (if s.ins.q ≠ s.ins.p + 4 then 2
      else rangeCode (s.ins.xRel < -0x80000800 ∨ s.ins.xRel > 0x7FFFF7FF)) := by
  rw [← err_callPair, ← resultOf_call hi]
  exact answersErr_of_exec (exec_eq_next i s)

theorem legalImmediate_b_iff_not_odd_or_beyond (x : Int) :
    legalImmediate .b x = true ↔ ¬ (x % 2 = 1 ∨ x < -4096 ∨ x > 4094) := by
  rw [legalImmediate_b_iff]; omega

theorem legalImmediate_j_iff_not_odd_or_beyond (x : Int) :
    legalImmediate .j x = true ↔ ¬ (x % 2 = 1 ∨ x < -1048576 ∨ x > 1048574) := by
  rw [legalImmediate_j_iff]; omega

/-- Settles O50: a row of the table is the `err` of what its operation drives, with the oddness test of the B and J rows
written before the bounds (R206). -/
theorem errorsOfEachOperation : Obligations.ErrorsOfEachOperation := by
  intro s v x y
  have oddV_b := legalImmediate_b_iff_not_odd_or_beyond v
  have oddV_j := legalImmediate_j_iff_not_odd_or_beyond v
  have oddX_b := legalImmediate_b_iff_not_odd_or_beyond x
  have oddX_j := legalImmediate_j_iff_not_odd_or_beyond x
  exact ⟨
    fun f => answersErr_of_exec (exec_decoder_eq_next f s),
    answersErr_rangeCode (encUPacksOrRefusesLowBits s),
    answersErr_rangeCode (encIPacksTwelveBits s),
    answersErr_rangeCode (encSSplitsTwelveBits s),
    answersErr_rangeCode (exec_encoder_eq_ite (f := .b) oddV_b),
    answersErr_rangeCode (exec_encoder_eq_ite (f := .j) oddV_j),
    answersErr_rangeCode (riscv32GivesTheSumOrRangeError s),
    answersErr_rangeCode (riscv64GivesTheSumOrRangeError s),
    answersErr_rangeCode (pcrelHi20RoundsOrRangeError s),
    answersErr_of_exec (pcrelLo12GivesTheLowTwelveBits s _ (.inl rfl)),
    answersErr_of_exec (pcrelLo12GivesTheLowTwelveBits s _ (.inr rfl)),
    answersErr_rangeCode (hi20RoundsOrRangeError s),
    answersErr_of_exec (lo12GivesTheLowTwelveBits s _ (.inl rfl)),
    answersErr_of_exec (lo12GivesTheLowTwelveBits s _ (.inr rfl)),
    answersErr_rangeCode (exec_eq_ite_of_resultOf (i := .branch) (v := .immediate _) rfl oddX_b),
    answersErr_rangeCode (exec_eq_ite_of_resultOf (i := .jal) (v := .immediate _) rfl oddX_j),
    fun i hi => answersErr_call hi s,
    fun reserved => ⟨_, step_eq_next_of_reserved reserved, rfl⟩⟩

end Sys2Proof.Machine
end

section
/-! PROOFS. The block after reset (R31, R240) and its LATENCY (R244): outputs that are EVAL of the inputs present are lawful,
and EVAL reads nothing of how the block is built but the width of the addresses. -/

namespace Sys2Proof.Machine

/-- Settles O8: EVAL is the result of the inputs alone, and LATENCY is not among them (R244). -/
theorem latencyReachesNoOutput : Obligations.LatencyReachesNoOutput := by
  intro b l ins
  calc EVAL { b with latency := l } ins
      = (evalResult ins).outputs := EVAL_eq_outputs_evalResult { b with latency := l } ins
    _ = EVAL b ins := (EVAL_eq_outputs_evalResult b ins).symm

@[simp] theorem Inputs.zero_op (n : Nat) : (Inputs.zero n).op = 0 := rfl

/-- R71, R102: with zeros on every port the block decodes the U immediate of the zero word, at every ADDR_W. -/
theorem evalResult_zero (n : Nat) : evalResult (Inputs.zero n) = .ok (.immediate 0) := by
  have selected : decodeOp 0 = some .decU := by decide
  have zeroImmediate : readImmediate .u 0 = 0 := by decide
  calc evalResult (Inputs.zero n) = resultOf .decU (Inputs.zero n) := by rw [evalResult, Inputs.zero_op, selected]
    _ = .ok (.immediate (readImmediate .u 0)) := resultOf_decoder .u _
    _ = .ok (.immediate 0) := by rw [zeroImmediate]

/-- Settles O1: the outputs of DEC_U of the zero word are the zeros on the ports (R31, R240). -/
theorem resetOutputsAreEvalOfInputs : Obligations.ResetOutputsAreEvalOfInputs := by
  have zeroOutputs : EVAL Config.defaultBuild (Inputs.zero Config.defaultBuild.addrW) =
      { res0 := 0, res1 := 0, err := 0 } := by
    rw [EVAL_eq_outputs_evalResult, evalResult_zero, Result.outputs_immediate]
    rfl
  exact zeroOutputs.symm

/-- Settled outputs are those that a step leaves, so they are lawful. -/
theorem State.settled.lawful {s : State} (settled : s.settled) : s.Lawful := by
  obtain ⟨t, runs, lawful⟩ := everyStepLeavesLawfulOutputs s
  obtain rfl : s = t := Host.Outcome.next.inj ((step_eq_next_self_of_settled settled).symm.trans runs)
  exact lawful

/-- Settles O52: the outputs after reset are settled (R240). -/
theorem resetOutputsAreLawful : Obligations.ResetOutputsAreLawful :=
  State.settled.lawful resetOutputsAreEvalOfInputs

end Sys2Proof.Machine
end
